-- ==== Sys2Proof/Word.lean ====
section
/-! DEFINITION. The word types of the Athrel 6124: what the manual treats as bits. -/

namespace Sys2Proof

/-- One byte of a frame, a payload or a record body. -/
abbrev Byte := BitVec 8

/-- A 32-bit word: a record key, a capture entry word, an event counter's count. -/
abbrev Word := BitVec 32

/-- A 48-bit time base value in nanoseconds (R11). -/
abbrev Stamp := BitVec 48

/-- A 48-bit link address (R188). -/
abbrev LinkAddr := BitVec 48

end Sys2Proof
end

