-- ==== Sys2Proof/Syntax.lean ====
section
/-! DEFINITION. The commands of the block: one constructor per row of spec/opcode_table.json, with the row's operands.
An event's operands name the lane, channel, segment, receiver or line it happens on and the levels it samples.
A request row has no operand: the command is the serving of the oldest request of the ingress queue (R190), and the
request's fields are the bytes of its payload (R203; log 4). -/

namespace Sys2Proof

/-- The two lines of a sideband bus segment (4.1). -/
inductive BusLine where
  | clock
  | data
  deriving DecidableEq, Repr

/-- An Ethernet frame as the PHY hands it over (R188): the addresses, the EtherType, the payload bytes and whether the
frame check was good. -/
structure Frame where
  dst : LinkAddr
  src : LinkAddr
  etherType : BitVec 16
  payload : List Byte
  checkGood : Bool
  deriving DecidableEq, Repr

inductive Instr where
  -- resets and memory
  | powerOnReset (straps : BitVec 4)
  | memoryReady
  -- the 1 µs tick
  | tick
  -- signal lanes, decoder, clock presence check
  | laneDeparture (lane : Fin 16) (pin : Bool)
  | laneAcceptance (lane : Fin 16)
  | glitch (lane : Fin 16) (pin : Bool)
  | bypassAcceptedChange (lane : Fin 16) (pin : Bool)
  | episodeExpiry
  | clockCheckEnd (bref rclk : BitVec 8)
  -- rails
  | conversionEnd (code : BitVec 12)
  | blankHoldExpiry (channel : Fin 8)
  -- buses
  | busStart (segment : Fin 2)
  | busStop (segment : Fin 2)
  | busByteEnd (segment : Fin 2)
  | stuckTimeout (segment : Fin 2)
  | stuckEpisodeEnd (segment : Fin 2)
  -- consoles
  | consoleByte (receiver : Fin 2) (pin : Bool)
  | consoleBreak (receiver : Fin 2)
  | idleClose (receiver : Fin 2)
  -- classification
  | admission
  | classifyRecord
  -- scan engine
  | scanComplete
  | returnClockTimeout
  | abortPauseReached
  -- control lines
  | pressEnd (line : Fin 8)
  | deferralExpiry (line : Fin 8)
  -- link
  | frameArrival (frame : Frame)
  | linkEgress (begins : Bool)
  | linkDown (down : Bool)
  -- requests of the Station Link Unit
  | identify
  | softReset
  | alertConfig
  | alertNext
  | alertClear
  -- requests of the Time Base Unit
  | timeRead
  | timeTrim
  | timeSetImmediate
  | timeSetArmed
  | timeSetCancel
  -- requests of the Signal Tap Unit
  | laneConfig
  | laneStatus
  | glitchClear
  | decodeConfig
  | decodeLoad
  | decodeRead
  | clockCheck
  -- requests of the Rail Monitor Unit
  | railConfig
  | tripClear
  | railRead
  -- requests of the Bus and Console Tap Unit
  | busConfig
  | busStatus
  | consoleConfig
  | consoleStatus
  -- requests of the Classification Engine
  | entryWrite
  | defaultWrite
  | entryWriteDirect
  | defaultWriteDirect
  | entryRead
  | commit
  | commitCancel
  | hitsRead
  | hitsClear
  | tableStatus
  -- requests of the Trigger Sequencer
  | arm
  | stop
  | triggerNow
  | levelWrite
  | levelRead
  | counterConfig
  | compareWrite
  | sequencerStatus
  -- requests of the Capture Store
  | ringConfig
  | ringStart
  | ringStop
  | ringRead
  | ringStatus
  -- requests of the Scan Engine
  | scanConfig
  | scanSubmit
  | scanAbortBoundary
  | scanAbortImmediate
  | slotLoad
  | slotRead
  | scanStatus
  -- requests of the Drive Control Unit
  | lineSetAssert
  | lineSetRelease
  | linePress
  | lineConfig
  | pairConfig
  | pairConfigClear
  | modeSetNormal
  | modeSetHold
  | modeSetSafe
  | lineStatus
  -- steps below the record level
  | sampleTick (receiver : Fin 2) (pin : Bool)
  | busLineDeparture (segment : Fin 2) (line : BusLine) (pin : Bool)
  | bitTaken (segment : Fin 2)
  | tckClock (rclk tdo : Bool)
  | frameSent
  deriving DecidableEq, Repr

end Sys2Proof
end

