-- ==== Sys2Proof/Config.lean ====
section
/-! DEFINITION. What the part fixes (numbers of the manual) and the free values (what the manual leaves open). -/

namespace Sys2Proof.Config

/-- Core clocks in 1 µs (R14). -/
abbrev clocksPerUs : Nat := 125

/-- Core clocks in 1 ms (R14). -/
abbrev clocksPerMs : Nat := 125000

/-- Core clocks of one rail conversion, 2 µs (R42). -/
abbrev conversionClocks : Nat := 250

/-- The bound on memory initialization, 20 ms in core clocks (R125). -/
abbrev initBound : Nat := 20 * clocksPerMs

/-- Blocks of capture memory (R126). -/
abbrev memoryBlocks : Nat := 8192

/-- Words of one block (R126). -/
abbrev blockWords : Nat := 16384

/-- Words of entries an export frame or a RING READ response holds at most (R145, R146). -/
abbrev frameWords : Nat := 369

/-- Places of a holding FIFO (R7). -/
abbrev fifoPlaces : Nat := 4

/-- Places of the record queue (R78). -/
abbrev queuePlaces : Nat := 64

/-- Places of the ingress queue (R189). -/
abbrev ingressPlaces : Nat := 8

/-- Places of the owed list (R188). -/
abbrev owedPlaces : Nat := 64

/-- Places of the station scan queue (R156). -/
abbrev scanPlaces : Nat := 8

/-- The EtherType of bench frames (R188). -/
abbrev etherType : BitVec 16 := 0x9A17

/-- The broadcast address (R188). -/
abbrev broadcast : LinkAddr := 0xFFFFFFFFFFFF

/-- The part code of IDENTIFY (R200). -/
abbrev partCode : Nat := 0x6124

/-- The silicon revision of IDENTIFY (R200). -/
abbrev revision : Nat := 1

/-- FREE VALUE (log 11). The level on TDI at a TCK clock that shifts no bit: R150 says TDI is set, not to what. -/
opaque freeTdi : Nat → Bool

/-- FREE VALUE (log 12). Whether a count of core clocks that is no whole number of ms is reported rounded up:
RAIL READ (R57) and LINE STATUS (R186) carry milliseconds left, and no rule says how they are rounded. -/
opaque roundsUp : Nat → Bool

/-- FREE VALUE (log 13). What the 4-byte field of a timer reads when the count has passed 2^32−1 (R68, R76). -/
opaque timerReadout : Nat → Nat

end Sys2Proof.Config
end

