-- ==== Sys2Proof/Machine/State.lean ====
section
/-! DEFINITION. The state of the part as plain data, block by block, its reset values, and the reasons a step can stop. -/

namespace Sys2Proof.Machine

/-! ## Requests and responses (chapter 10) -/

/-- The status of a response (10.4; codes in 11.1). -/
inductive Status where
  | done | full | busy | state | range | bad | superseded
  | guarded | interlock | safe | noPower | aborted | timeout | notReady
  deriving DecidableEq, Repr

/-- What a response must carry of its request (R191): the sender's address, the tag and the code. `id` is the model's
own serial number of the acceptance, which tells equal requests apart (log 21). -/
structure Ticket where
  id : Nat
  src : LinkAddr
  tag : BitVec 16
  code : Byte
  deriving DecidableEq, Repr

/-- A request in the ingress queue (R190): its ticket and its payload bytes. -/
structure Request where
  ticket : Ticket
  payload : List Byte
  deriving DecidableEq, Repr

/-- A request of the owed list (R191), with whether its response has been made. -/
structure Owed where
  ticket : Ticket
  answered : Bool
  deriving DecidableEq, Repr

/-- A response of the response list (R191). -/
structure Response where
  ticket : Ticket
  status : Status
  payload : List Byte
  deriving DecidableEq, Repr

/-- A frame the part sends, with the request it answers if it is a response (R191, R194, R197). -/
structure OutFrame where
  dst : LinkAddr
  src : LinkAddr
  payload : List Byte
  answers : Option Nat
  deriving DecidableEq, Repr

/-- The sixteen alert sources (10.6). -/
inductive AlertSource where
  | triggered | done | railTrip | safe | scanFault | seqViolation | busStuck | ringGap
  | recordLoss | tableSwap | seqAlert | matchAlert (n : Fin 4) | timeSetApplied
  deriving DecidableEq, Repr

/-- An alert source's pending flag and level 0–7 (R195, R196). -/
structure Alert where
  pending : Bool
  level : Nat
  deriving DecidableEq, Repr

/-- The Station Link Unit (chapter 10). -/
structure Slu where
  fixture : BitVec 4
  station : Option LinkAddr
  ingress : List Request
  owed : List Owed
  responses : List Response
  alerts : Vector Alert 16
  mask : Nat
  due : Bool
  alertCount : BitVec 16
  exportCount : BitVec 16
  formed : Option OutFrame
  sending : Option OutFrame
  accepted : Nat
  deriving DecidableEq, Repr

/-! ## Tap records and holding FIFOs (chapter 1) -/

/-- The 29 kinds of tap record, in the order of the kind catalogue (11.4). -/
inductive Kind where
  | edgeRise | edgeFall | glitch
  | state | seqViolation
  | clockResult
  | railInitial | railEnter | railLeaveHigh | railLeaveLow | railTrip | railSample
  | busWrite | busRead | busAddrNak | busError | busStuck
  | consoleText | consoleBreak
  | scanStart | scanDone | scanFail
  | driveStart | driveAssert | driveRelease | drivePressEnd | driveSafe | driveRefused
  | timeSet
  deriving DecidableEq, Repr

/-- Who asked for a guarded action (R6). -/
inductive Origin where
  | station | sequencer
  deriving DecidableEq, Repr

/-- The flags of a record (R5). -/
structure RecFlags where
  truncated : Bool := false
  continued : Bool := false
  framing : Bool := false
  saturated : Bool := false
  blanked : Bool := false
  initial : Bool := false
  deriving DecidableEq, Repr

/-- A tap record (1.1). -/
structure Record where
  source : Fin 33
  kind : Kind
  stamp : Stamp
  key : Word
  body : List Byte
  lost : Nat
  flags : RecFlags
  origin : Option Origin
  deriving DecidableEq, Repr

/-- A source's holding FIFO (R7), lost count (R8) and list of waiting guard records (R9). -/
structure Hold where
  fifo : List Record
  lost : Nat
  waiting : List Record
  deriving DecidableEq, Repr

/-! ## Time base (chapter 1) -/

/-- An armed time set (R15). -/
structure ArmedSet where
  lane : Fin 16
  value : Stamp
  ticket : Ticket
  deriving DecidableEq, Repr

/-- The Time Base Unit (1.3). `framePeriod`, `frameClock` and `divider` number the NEXT core clock (log 7). -/
structure Tbu where
  base : Stamp
  period : Nat
  trim : Int
  framePeriod : Nat
  frameClock : Nat
  divider : Nat
  tickDue : Bool
  armed : Option ArmedSet
  deriving DecidableEq, Repr

/-! ## Signal lanes, decoder, clock presence check (chapter 2) -/

inductive LaneMode where
  | off | sense
  deriving DecidableEq, Repr

inductive Polarity where
  | activeHigh | activeLow
  deriving DecidableEq, Repr

inductive EdgeReport where
  | none | rise | fall | both
  deriving DecidableEq, Repr

/-- A lane's or bus line's filter: STEADY, or PENDING with the departure stamp and the elapsed clocks (2.1, 4.1). -/
inductive Filter where
  | steady
  | pending (t0 : Stamp) (elapsed : Nat)
  deriving DecidableEq, Repr

/-- A signal lane (2.1). `width` is the reject width code 0–4. -/
structure Lane where
  mode : LaneMode
  polarity : Polarity
  width : Fin 5
  edges : EdgeReport
  glitches : Bool
  accepted : Bool
  filter : Filter
  glitchCount : Nat
  lastEdge : Option Stamp
  deriving DecidableEq, Repr

/-- The five platform states (2.3). -/
inductive PlatformState where
  | run | suspend | softoff | mechoff | illegal
  deriving DecidableEq, Repr

/-- A decode table entry (2.3): the state, and the allowed-predecessor set with bit n for state n. -/
structure DecodeEntry where
  state : PlatformState
  allowed : BitVec 5
  deriving DecidableEq, Repr

/-- A settle episode (R32): its stamp, and the core clocks since the last accepted change. -/
structure Episode where
  stamp : Stamp
  count : Nat
  deriving DecidableEq, Repr

/-- The power-state decoder (2.3). -/
structure Decoder where
  a : Fin 16
  b : Fin 16
  c : Fin 16
  settle : Nat
  enabled : Bool
  table : Vector DecodeEntry 8
  current : Option PlatformState
  episode : Option Episode
  deriving DecidableEq, Repr

/-- The clock presence check (2.4): the request it holds, and its three counters (R38). -/
structure ClockCheck where
  running : Option Ticket
  core : Nat
  bref : Nat
  rclk : Nat
  deriving DecidableEq, Repr

/-- The Signal Tap Unit (chapter 2). -/
structure Stu where
  lanes : Vector Lane 16
  decoder : Decoder
  check : ClockCheck
  deriving DecidableEq, Repr

/-! ## Rail monitor (chapter 3) -/

inductive Window where
  | unknown | below | inside | above
  deriving DecidableEq, Repr

/-- The last conversion of a channel (R44). -/
structure Conversion where
  code : BitVec 12
  value : Nat
  saturated : Bool
  deriving DecidableEq, Repr

/-- A rail channel (3.1). -/
structure Channel where
  enabled : Bool
  gain : Nat
  low : Nat
  high : Nat
  hyst : Nat
  trip : Nat
  protect : Bool
  decim : Nat
  window : Window
  samples : Nat
  tripped : Bool
  blanked : Bool
  blankLatch : Window
  blankHold : Nat
  last : Option Conversion
  deriving DecidableEq, Repr

/-- What the Rail Monitor Unit records of a control line (R53). -/
structure LineRecord where
  active : Bool
  mask : BitVec 8
  deriving DecidableEq, Repr

/-- The channel being converted and the core clocks elapsed (3.1). -/
structure Converting where
  channel : Fin 8
  elapsed : Nat
  deriving DecidableEq, Repr

/-- The Rail Monitor Unit (chapter 3). -/
structure Rmu where
  channels : Vector Channel 8
  lines : Vector LineRecord 8
  converting : Option Converting
  position : Fin 8
  deriving DecidableEq, Repr

/-! ## Bus and console taps (chapter 4) -/

inductive BusPhase where
  | idle | address | data | ignore
  deriving DecidableEq, Repr

/-- One filtered bus line (R59). -/
structure LineFilter where
  accepted : Bool
  filter : Filter
  deriving DecidableEq, Repr

/-- The open record of a bus decoder (4.1). -/
structure BusRecord where
  stamp : Stamp
  address : Byte
  first : Byte
  second : Byte
  body : List Byte
  count : Nat
  truncated : Bool
  deriving DecidableEq, Repr

/-- A bus decoder (4.1). `highClean` says that the present high phase began after the last START or STOP and that the
data line has not changed during it; `highBit` is the data level at its beginning (R60). -/
structure Bus where
  enabled : Bool
  width : Fin 4
  timeout : Nat
  clockLine : LineFilter
  dataLine : LineFilter
  highClean : Bool
  highBit : Bool
  phase : BusPhase
  bitCount : Nat
  byte : Byte
  openRecord : Option BusRecord
  stuckTimer : Nat
  stuck : Bool
  deriving DecidableEq, Repr

inductive RxState where
  | waitHigh | hunt | confirm | data | stop | breakCheck
  deriving DecidableEq, Repr

/-- The open record of a console receiver (4.5). -/
structure TextRecord where
  stamp : Stamp
  bytes : List Byte
  framing : Bool
  deriving DecidableEq, Repr

/-- A console receiver (4.5). `tickCounter` numbers the next core clock; `bits` are the data bits taken, bit 0 first;
`idleTimer` is none while the timer is stopped. -/
structure Console where
  enabled : Bool
  divisor : Nat
  idleClose : Nat
  tickCounter : Nat
  tickDue : Bool
  rx : RxState
  detect : Stamp
  ticks : Nat
  bits : List Bool
  openRecord : Option TextRecord
  idleTimer : Option Nat
  deriving DecidableEq, Repr

/-- The Bus and Console Tap Unit (chapter 4). -/
structure Btu where
  buses : Vector Bus 2
  consoles : Vector Console 2
  deriving DecidableEq, Repr

/-! ## Match Table (chapter 5) -/

/-- The action part of an entry, which is the whole of a default entry (5.2). -/
structure Action where
  ring : Option (Fin 4)
  cls : Option (Fin 16)
  alert : Option (Fin 4)
  refuse : Bool
  strip : Bool
  deriving DecidableEq, Repr

/-- A Match Table entry (5.2); `kind` none is ANY. -/
structure MatchEntry where
  valid : Bool
  sourceLow : Fin 33
  sourceHigh : Fin 33
  kind : Option Kind
  keyValue : Word
  keyMask : Word
  action : Action
  deriving DecidableEq, Repr

/-- A bank: 64 entries and a default entry (5.2). -/
structure Bank where
  entries : Vector MatchEntry 64
  dflt : Action
  deriving DecidableEq, Repr

/-- A commit point (5.5). -/
inductive CommitPoint where
  | nextRecord
  | nextArm
  | onClass (e : Fin 16)
  deriving DecidableEq, Repr

/-- The Classification Engine (chapter 5). `hits` holds the 64 entry counts and, last, the default entry's. -/
structure Cle where
  queue : List Record
  position : Fin 33
  active : Bank
  shadow : Bank
  hits : Vector Nat 65
  commit : Option CommitPoint
  deriving DecidableEq, Repr

/-! ## Trigger sequencer (chapter 6) -/

inductive RunState where
  | idle | armed | triggered | done
  deriving DecidableEq, Repr

/-- A branch action (6.2). -/
inductive SeqAction where
  | startCounter (c : Fin 4)
  | stopCounter (c : Fin 4)
  | clearCounter (c : Fin 4)
  | injectScan (slot : Fin 4)
  | pressLine (line : Fin 8) (width : Nat)
  | enterSafe
  | seqAlert
  deriving DecidableEq, Repr

/-- Where a branch leads (6.2). -/
inductive Next where
  | level (l : Fin 8)
  | stay
  | trigger
  deriving DecidableEq, Repr

/-- A branch of a level record (6.2); its class is 0–15 or a counter match 16–19. -/
structure Branch where
  enabled : Bool
  cls : Fin 20
  next : Next
  actions : List SeqAction
  deriving DecidableEq, Repr

structure Level where
  a : Branch
  b : Branch
  deriving DecidableEq, Repr

inductive CounterSource where
  | cls (e : Fin 16)
  | tick
  deriving DecidableEq, Repr

inductive WriteMode where
  | direct | staged
  deriving DecidableEq, Repr

/-- An event counter (6.5). -/
structure Counter where
  source : CounterSource
  runAtArm : Bool
  writeMode : WriteMode
  running : Bool
  count : Word
  compare : Word
  staged : Option Word
  deriving DecidableEq, Repr

inductive BranchId where
  | a | b
  deriving DecidableEq, Repr

/-- The trigger cause (R120); branch and class are none after TRIGGER NOW (R118). -/
structure Cause where
  level : Fin 8
  branch : Option BranchId
  cls : Option (Fin 20)
  deriving DecidableEq, Repr

/-- The Trigger Sequencer (chapter 6). `post` is the post set: none for a ring outside it, else whether it is marked
FROZEN. -/
structure Tsq where
  run : RunState
  level : Fin 8
  levels : Vector Level 8
  counters : Vector Counter 4
  stamp : Option Stamp
  cause : Option Cause
  post : Vector (Option Bool) 4
  deriving DecidableEq, Repr

/-! ## Capture store (chapter 7) -/

inductive RingMode where
  | off | window | stream
  deriving DecidableEq, Repr

inductive RingState where
  | disabled | ready | running | post | frozen | streaming
  deriving DecidableEq, Repr

/-- A capture entry (7.3). -/
inductive Entry where
  | ordinary (source : Fin 33) (kind : Kind) (flags : RecFlags) (origin : Option Origin) (delta : Int) (lost : Nat)
      (key : Word) (body : List Byte)
  | mark (stamp : Stamp)
  | trig (delta : Int) (cause : Cause)
  | gap (delta : Int) (count : Nat)
  deriving DecidableEq, Repr

/-- A capture ring (7.2). Occupancy and entry count are computed from `entries`, oldest first. -/
structure Ring where
  mode : RingMode
  base : Nat
  size : Nat
  post : Nat
  priority : Nat
  state : RingState
  entries : List Entry
  reference : Option Stamp
  head : Option Stamp
  markDue : Bool
  sinceMark : Nat
  truncated : Bool
  stopped : Bool
  dropped : Nat
  trig : Option Nat
  written : Nat
  deriving DecidableEq, Repr

/-- The Capture Store (chapter 7). -/
structure Cst where
  ready : Bool
  initClocks : Nat
  rings : Vector Ring 4
  deriving DecidableEq, Repr

/-! ## Scan engine (chapter 8) -/

inductive TapState where
  | reset | idle | pauseDr | pauseIr | unknown
  deriving DecidableEq, Repr

inductive ScanPhase where
  | free | guard | shift | aborting
  deriving DecidableEq, Repr

inductive ScanKind where
  | irScan | drScan | tapReset | idleClocks
  deriving DecidableEq, Repr

/-- A scan (8.5): `length` is L or n, `pause` says that the end state is the pause state of the scan's register. -/
structure Scan where
  kind : ScanKind
  pause : Bool
  length : Nat
  out : List Bool
  deriving DecidableEq, Repr

/-- The part of a scan's path a TCK clock belongs to (R153, R154). -/
inductive ClockPart where
  | entry | shift | exit | resetHigh | resetLow | idlePath | idle
  deriving DecidableEq, Repr

/-- One TCK clock to drive (R150): TMS, its part, and the out bit it shifts if it shifts one. -/
structure TckClock where
  tms : Bool
  part : ClockPart
  out : Option Bool
  deriving DecidableEq, Repr

inductive ScanOrigin where
  | station (t : Ticket)
  | slot (n : Fin 4)
  deriving DecidableEq, Repr

/-- The running scan (8.1 state table): the scan, its origin, the TDO captured so far (one bit per bit shifted), whether
an IMMEDIATE abort has been taken, whether that abort has stopped a TAP-RESET or IDLE-CLOCKS scan short (R166), and the
TCK clocks not yet completed, the one in progress first. -/
structure Running where
  scan : Scan
  origin : ScanOrigin
  tdo : List Bool
  abortTaken : Bool
  stoppedShort : Bool
  plan : List TckClock
  deriving DecidableEq, Repr

inductive SlotState where
  | empty | loaded | queued | running | done | failed | aborted
  deriving DecidableEq, Repr

/-- The result of a scan (8.5): its outcome as a status and its TDO bits, one per bit shifted. -/
structure ScanResult where
  outcome : Status
  tdo : List Bool
  deriving DecidableEq, Repr

structure Slot where
  state : SlotState
  scan : Option Scan
  result : Option ScanResult
  deriving DecidableEq, Repr

/-- A station scan request in the queue (R156). -/
structure StationScan where
  ticket : Ticket
  scan : Scan
  deriving DecidableEq, Repr

/-- The Scan Engine (chapter 8). `edgeClocks` counts core clocks since the last TCK edge (or since the first clock of a
scan was set up) and `followed` says that RCLK has followed that edge (R151). -/
structure Sce where
  rate : Fin 8
  timeout : Nat
  powerLane : Option (Fin 16)
  powerLevel : Bool
  tracked : TapState
  phase : ScanPhase
  running : Option Running
  queue : List StationScan
  slots : Vector Slot 4
  tck : Bool
  tms : Bool
  tdi : Bool
  edgeClocks : Nat
  followed : Bool
  deriving DecidableEq, Repr

/-! ## Control lines (chapter 9) -/

inductive DriveMode where
  | normal | hold | safe
  deriving DecidableEq, Repr

inductive DriveAction where
  | assert | release | press | safe
  deriving DecidableEq, Repr

/-- A line request (9.3); no ticket means origin SEQUENCER (R181). -/
structure LineRequest where
  ticket : Option Ticket
  action : DriveAction
  width : Nat
  deriving DecidableEq, Repr

/-- A line's state (9.1); end and expiry moments are numbers of the core clock count. -/
inductive LineState where
  | released
  | asserted
  | pressing (width : Nat) (ends : Nat)
  | deferred (request : LineRequest) (expires : Nat)
  deriving DecidableEq, Repr

/-- A moment: its core clock number and the time base value read there (R172). -/
structure Moment where
  clock : Nat
  stamp : Stamp
  deriving DecidableEq, Repr

/-- A line's request in guard (R176), marked when a release has withdrawn it (R180). -/
structure Guarded where
  request : LineRequest
  withdrawn : Bool
  deriving DecidableEq, Repr

/-- A control line (9 state table); `safeAsserted` is the safe level. -/
structure Line where
  state : LineState
  safeAsserted : Bool
  mask : BitVec 8
  interval : Nat
  lastRelease : Option Moment
  guarded : Option Guarded
  deriving DecidableEq, Repr

/-- An interlock pair (R175). -/
structure Pair where
  a : Fin 8
  b : Fin 8
  gap : Nat
  deriving DecidableEq, Repr

/-- The Drive Control Unit (chapter 9). A SAFE request in guard with no ticket is an ENTER-SAFE (R184). -/
structure Dcu where
  mode : DriveMode
  lines : Vector Line 8
  safeGuard : List (Option Ticket)
  pairs : Vector (Option Pair) 4
  deriving DecidableEq, Repr

/-! ## Pins and the whole state -/

/-- The levels on the part's input pins, the rising edges BREF and RCLK give in each core clock (R38, R39; log 24), and
the PHY's report of the link. The outside world owns these; a command that samples a pin carries the level and sets it
here (log 5). -/
structure Pins where
  lanes : Vector Bool 16
  rails : Vector (BitVec 12) 8
  busClock : Vector Bool 2
  busData : Vector Bool 2
  con : Vector Bool 2
  brefEdges : BitVec 8
  rclkEdges : BitVec 8
  rclk : Bool
  tdo : Bool
  straps : BitVec 4
  linkDown : Bool
  deriving DecidableEq, Repr

structure State where
  pending : List Instr
  clock : Nat
  free : Nat
  pins : Pins
  tbu : Tbu
  hold : Vector Hold 33
  stu : Stu
  rmu : Rmu
  btu : Btu
  cle : Cle
  tsq : Tsq
  cst : Cst
  sce : Sce
  dcu : Dcu
  slu : Slu
  deriving DecidableEq, Repr

/-- Why a step would stop with a fault: the spec gives the part no such condition, so there is no constructor (log 30;
safe: no claim can rest on a fault). -/
inductive Fault : Type
  deriving DecidableEq, Repr

/-- Why a step would refuse a command. -/
inductive Refusal where
  /-- Raised by an arm of `exec` whose command has no meaning in the model yet; none is left. Safe. -/
  | notModelled (mnemonic : String)
  deriving DecidableEq, Repr

/-- The outcome of a step of the part. -/
abbrev Outcome := Host.Outcome State Fault Refusal

/-! ## Reset values -/

/-- R19. -/
def Tbu.reset : Tbu :=
  { base := 0, period := 1000, trim := 0, framePeriod := 1, frameClock := 1, divider := 1, tickDue := false,
    armed := none }

/-- R10. -/
def Hold.reset : Hold := { fifo := [], lost := 0, waiting := [] }

/-- R29. -/
def Lane.reset : Lane :=
  { mode := .off, polarity := .activeHigh, width := 0, edges := .none, glitches := false, accepted := false,
    filter := .steady, glitchCount := 0, lastEdge := none }

/-- R38. -/
def Decoder.reset : Decoder :=
  { a := 0, b := 0, c := 0, settle := 0, enabled := false,
    table := Vector.replicate 8 { state := .illegal, allowed := 0 }, current := none, episode := none }

/-- R41. -/
def ClockCheck.reset : ClockCheck := { running := none, core := 0, bref := 0, rclk := 0 }

/-- R29, R38, R41. -/
def Stu.reset : Stu :=
  { lanes := Vector.replicate 16 Lane.reset, decoder := Decoder.reset, check := ClockCheck.reset }

/-- R58. -/
def Channel.reset : Channel :=
  { enabled := false, gain := 1024, low := 0, high := 0, hyst := 0, trip := 0, protect := false, decim := 0,
    window := .unknown, samples := 0, tripped := false, blanked := false, blankLatch := .unknown, blankHold := 0,
    last := none }

/-- R58. -/
def Rmu.reset : Rmu :=
  { channels := Vector.replicate 8 Channel.reset, lines := Vector.replicate 8 { active := false, mask := 0 },
    converting := none, position := 7 }

/-- R69. -/
def Bus.reset : Bus :=
  { enabled := false, width := 1, timeout := 25, clockLine := { accepted := true, filter := .steady },
    dataLine := { accepted := true, filter := .steady }, highClean := false, highBit := false, phase := .idle,
    bitCount := 0, byte := 0, openRecord := none, stuckTimer := 0, stuck := false }

/-- R77. -/
def Console.reset : Console :=
  { enabled := false, divisor := 68, idleClose := 10, tickCounter := 1, tickDue := false, rx := .waitHigh, detect := 0,
    ticks := 0, bits := [], openRecord := none, idleTimer := none }

/-- R69, R77. -/
def Btu.reset : Btu :=
  { buses := Vector.replicate 2 Bus.reset, consoles := Vector.replicate 2 Console.reset }

/-- R100. -/
def Action.reset : Action := { ring := none, cls := none, alert := none, refuse := false, strip := false }

/-- R100. -/
def Bank.reset : Bank :=
  { entries := Vector.replicate 64
      { valid := false, sourceLow := 0, sourceHigh := 0, kind := none, keyValue := 0, keyMask := 0,
        action := Action.reset },
    dflt := Action.reset }

/-- R100. -/
def Cle.reset : Cle :=
  { queue := [], position := 32, active := Bank.reset, shadow := Bank.reset, hits := Vector.replicate 65 0,
    commit := none }

/-- R124. -/
def Branch.reset : Branch := { enabled := false, cls := 0, next := .stay, actions := [] }

/-- R124. -/
def Counter.reset : Counter :=
  { source := .cls 0, runAtArm := false, writeMode := .direct, running := false, count := 0, compare := 0xFFFFFFFF,
    staged := none }

/-- R124. -/
def Tsq.reset : Tsq :=
  { run := .idle, level := 0, levels := Vector.replicate 8 { a := Branch.reset, b := Branch.reset },
    counters := Vector.replicate 4 Counter.reset, stamp := none, cause := none, post := Vector.replicate 4 none }

/-- R149. -/
def Ring.reset : Ring :=
  { mode := .off, base := 0, size := 0, post := 0, priority := 0, state := .disabled, entries := [], reference := none,
    head := none, markDue := false, sinceMark := 0, truncated := false, stopped := false, dropped := 0, trig := none,
    written := 0 }

/-- R125, R149. -/
def Cst.reset : Cst := { ready := false, initClocks := 0, rings := Vector.replicate 4 Ring.reset }

/-- R171. -/
def Sce.reset : Sce :=
  { rate := 7, timeout := 0, powerLane := none, powerLevel := true, tracked := .unknown, phase := .free, running := none,
    queue := [], slots := Vector.replicate 4 { state := .empty, scan := none, result := none }, tck := false, tms := true,
    tdi := true, edgeClocks := 0, followed := true }

/-- R187. -/
def Dcu.reset : Dcu :=
  { mode := .normal,
    lines := Vector.replicate 8
      { state := .released, safeAsserted := false, mask := 0, interval := 0, lastRelease := none, guarded := none },
    safeGuard := [], pairs := Vector.replicate 4 none }

/-- R202, for the fixture number read from the straps. -/
def Slu.reset (straps : BitVec 4) : Slu :=
  { fixture := straps, station := none, ingress := [], owed := [], responses := [],
    alerts := Vector.replicate 16 { pending := false, level := 0 }, mask := 0, due := false, alertCount := 0,
    exportCount := 0, formed := none, sending := none, accepted := 0 }

/-- The input levels the model names for the state after reset: lanes and RCLK low, the pulled-up bus and idle console
lines and TDO high, BREF and RCLK giving no edges, rails at code 0, straps 0, link up (DESIGN CHOICE, unsafe, log 5). -/
def Pins.reset : Pins :=
  { lanes := Vector.replicate 16 false, rails := Vector.replicate 8 0, busClock := Vector.replicate 2 true,
    busData := Vector.replicate 2 true, con := Vector.replicate 2 true, brefEdges := 0, rclkEdges := 0, rclk := false,
    tdo := true, straps := 0, linkDown := false }

/-- The part right after power-on reset (R10, R19, R29, R38, R41, R58, R69, R77, R100, R124, R149, R171, R187, R202). -/
def State.reset : State :=
  { pending := [], clock := 0, free := 0, pins := Pins.reset, tbu := Tbu.reset, hold := Vector.replicate 33 Hold.reset,
    stu := Stu.reset, rmu := Rmu.reset, btu := Btu.reset, cle := Cle.reset, tsq := Tsq.reset, cst := Cst.reset,
    sce := Sce.reset, dcu := Dcu.reset, slu := Slu.reset 0 }

end Sys2Proof.Machine
end

