-- ==== Sys2Proof/Machine/Operands.lean ====
section
/-! DEFINITION. The operand forms: request codes and lengths, the number and named-value encodings of payloads (R203),
and the layouts of 11.2 for entries, scans, branches and sets. -/

namespace Sys2Proof.Machine

/-! ## Numbers -/

/-- A value below n as a member of `Fin n`. -/
def toFin (n v : Nat) : Option (Fin n) := if h : v < n then some ⟨v, h⟩ else none

/-- Byte i of a payload as a number. -/
def byteAt (p : List Byte) (i : Nat) : Nat := (p.getD i 0).toNat

/-- The number in n bytes from byte i on, most significant byte first (chapter 11). -/
def numAt (p : List Byte) (i n : Nat) : Nat := ((p.drop i).take n).foldl (fun acc b => acc * 256 + b.toNat) 0

/-- A number in n bytes, most significant byte first (R203). -/
def num : Nat → Nat → List Byte
  | 0, _ => []
  | n + 1, v => BitVec.ofNat 8 (v / 256 ^ n) :: num n v

/-- A stamp or time in 6 bytes (R203). -/
def numStamp (s : Stamp) : List Byte := num 6 s.toNat

/-- A signed byte read in two's complement (R203). -/
def signedByteAt (p : List Byte) (i : Nat) : Int := (p.getD i 0).toInt

/-- A signed number in 1 byte, two's complement (R203). -/
def numSigned (v : Int) : List Byte := [BitVec.ofInt 8 v]

/-- A 1-byte number that may be NONE: 255 is NONE (R203). -/
def numOrNone (v : Option Nat) : List Byte := num 1 (v.getD 255)

/-- A group that may be absent: a presence flag, and bytes of 0 when it is absent (R203). -/
def group (size : Nat) (bytes : Option (List Byte)) : List Byte :=
  match bytes with
  | some b => 1 :: b
  | none => 0 :: List.replicate size 0

/-- A count of core clocks as milliseconds: exact where whole, else rounded as the free value says (log 12). -/
def toMs (clocks : Nat) : Nat :=
  if clocks % Config.clocksPerMs = 0 then clocks / Config.clocksPerMs
  else if Config.roundsUp clocks then clocks / Config.clocksPerMs + 1
  else clocks / Config.clocksPerMs

/-- A timer in a 4-byte field; past the field's range the readout is a free value (log 13). -/
def numTimer (clocks : Nat) : List Byte := num 4 (if clocks < 2 ^ 32 then clocks else Config.timerReadout clocks)

/-! ## Named values: the position in the list where the chapter first names them (R203; log 8, 9) -/

/-- A value whose list reads "yes, no", "on, off", "set or clear" or "present, absent": 0 is the first (log 8). -/
def numYesNo (b : Bool) : List Byte := [if b then 0 else 1]

/-- The same list read from a request. -/
def yesNoAt (p : List Byte) (i : Nat) : Option Bool :=
  match byteAt p i with
  | 0 => some true
  | 1 => some false
  | _ => none

/-- A value whose list reads "no, yes" or "clear, set" (log 8), an explicit 0 no, 1 yes (11.2), or a field for which its
chapter lists no values (log 9). -/
def numFlag (b : Bool) : List Byte := [if b then 1 else 0]

/-- A field with an explicit 0 no, 1 yes (11.2), read from a request. -/
def flagAt (p : List Byte) (i : Nat) : Option Bool :=
  match byteAt p i with
  | 0 => some false
  | 1 => some true
  | _ => none

/-- Modes OFF, SENSE (2.1). -/
def laneModeAt (p : List Byte) (i : Nat) : Option LaneMode :=
  match byteAt p i with
  | 0 => some .off
  | 1 => some .sense
  | _ => none

def LaneMode.num : LaneMode → Nat
  | .off => 0
  | .sense => 1

/-- Polarities ACTIVE-HIGH, ACTIVE-LOW (2.1). -/
def polarityAt (p : List Byte) (i : Nat) : Option Polarity :=
  match byteAt p i with
  | 0 => some .activeHigh
  | 1 => some .activeLow
  | _ => none

/-- Edge reports NONE, RISE, FALL, BOTH (2.1): NONE is 255, the others stand at their places 1 to 3 (log 8). -/
def edgeReportAt (p : List Byte) (i : Nat) : Option EdgeReport :=
  match byteAt p i with
  | 1 => some .rise
  | 2 => some .fall
  | 3 => some .both
  | 255 => some .none
  | _ => none

/-- Filter states STEADY, PENDING (2.1). -/
def Filter.num : Filter → Nat
  | .steady => 0
  | .pending _ _ => 1

/-- Platform states (11.2). -/
def PlatformState.num : PlatformState → Nat
  | .run => 0
  | .suspend => 1
  | .softoff => 2
  | .mechoff => 3
  | .illegal => 4

def platformStateOf : Nat → Option PlatformState
  | 0 => some .run
  | 1 => some .suspend
  | 2 => some .softoff
  | 3 => some .mechoff
  | 4 => some .illegal
  | _ => none

/-- Window states UNKNOWN, BELOW, INSIDE, ABOVE (3.1). -/
def Window.num : Window → Nat
  | .unknown => 0
  | .below => 1
  | .inside => 2
  | .above => 3

/-- Bus phases IDLE, ADDRESS, DATA, IGNORE (4.1). -/
def BusPhase.num : BusPhase → Nat
  | .idle => 0
  | .address => 1
  | .data => 2
  | .ignore => 3

/-- Receive states (4.5). -/
def RxState.num : RxState → Nat
  | .waitHigh => 0
  | .hunt => 1
  | .confirm => 2
  | .data => 3
  | .stop => 4
  | .breakCheck => 5

/-- Run states (6). -/
def RunState.num : RunState → Nat
  | .idle => 0
  | .armed => 1
  | .triggered => 2
  | .done => 3

/-- Ring modes OFF, WINDOW, STREAM (7.2). -/
def RingMode.num : RingMode → Nat
  | .off => 0
  | .window => 1
  | .stream => 2

def ringModeOf : Nat → Option RingMode
  | 0 => some .off
  | 1 => some .window
  | 2 => some .stream
  | _ => none

/-- Ring states DISABLED, READY, RUNNING, POST, FROZEN, STREAMING, the repeated READY counted once (7.2; log 10). -/
def RingState.num : RingState → Nat
  | .disabled => 0
  | .ready => 1
  | .running => 2
  | .post => 3
  | .frozen => 4
  | .streaming => 5

/-- Tracked TAP states RESET, IDLE, PAUSE-DR, PAUSE-IR, UNKNOWN (8). -/
def TapState.num : TapState → Nat
  | .reset => 0
  | .idle => 1
  | .pauseDr => 2
  | .pauseIr => 3
  | .unknown => 4

/-- Engine phases FREE, GUARD, SHIFT, ABORTING (8). -/
def ScanPhase.num : ScanPhase → Nat
  | .free => 0
  | .guard => 1
  | .shift => 2
  | .aborting => 3

/-- Scan kinds (11.2). -/
def ScanKind.num : ScanKind → Nat
  | .irScan => 0
  | .drScan => 1
  | .tapReset => 2
  | .idleClocks => 3

/-- Slot states EMPTY 0 to ABORTED 6 (11.2). -/
def SlotState.num : SlotState → Nat
  | .empty => 0
  | .loaded => 1
  | .queued => 2
  | .running => 3
  | .done => 4
  | .failed => 5
  | .aborted => 6

/-- Drive modes NORMAL, HOLD, SAFE (9). -/
def DriveMode.num : DriveMode → Nat
  | .normal => 0
  | .hold => 1
  | .safe => 2

/-- Line actions ASSERT, RELEASE, PRESS, SAFE: the numbers of the DRIVE key (11.4), in LINE STATUS too (log 36). -/
def DriveAction.num : DriveAction → Nat
  | .assert => 0
  | .release => 1
  | .press => 2
  | .safe => 3

/-- Line states RELEASED, ASSERTED, PRESSING, DEFERRED (9). -/
def LineState.num : LineState → Nat
  | .released => 0
  | .asserted => 1
  | .pressing _ _ => 2
  | .deferred _ _ => 3

/-- Origins STATION, SEQUENCER (R6). -/
def Origin.num : Origin → Nat
  | .station => 0
  | .sequencer => 1

/-- Branches (11.3): A 0, B 1. -/
def BranchId.num : BranchId → Nat
  | .a => 0
  | .b => 1

/-- Status codes (11.1). -/
def Status.num : Status → Nat
  | .done => 0
  | .full => 1
  | .busy => 2
  | .state => 3
  | .range => 4
  | .bad => 5
  | .superseded => 6
  | .guarded => 7
  | .interlock => 8
  | .safe => 9
  | .noPower => 10
  | .aborted => 11
  | .timeout => 12
  | .notReady => 13

/-! ## Kind codes (11.4) -/

def Kind.num : Kind → Nat
  | .edgeRise => 0
  | .edgeFall => 1
  | .glitch => 2
  | .state => 3
  | .seqViolation => 4
  | .clockResult => 5
  | .railInitial => 6
  | .railEnter => 7
  | .railLeaveHigh => 8
  | .railLeaveLow => 9
  | .railTrip => 10
  | .railSample => 11
  | .busWrite => 12
  | .busRead => 13
  | .busAddrNak => 14
  | .busError => 15
  | .busStuck => 16
  | .consoleText => 17
  | .consoleBreak => 18
  | .scanStart => 19
  | .scanDone => 20
  | .scanFail => 21
  | .driveStart => 22
  | .driveAssert => 23
  | .driveRelease => 24
  | .drivePressEnd => 25
  | .driveSafe => 26
  | .driveRefused => 27
  | .timeSet => 28

/-- The 29 kinds in code order. -/
def Kind.all : List Kind :=
  [.edgeRise, .edgeFall, .glitch, .state, .seqViolation, .clockResult, .railInitial, .railEnter, .railLeaveHigh,
    .railLeaveLow, .railTrip, .railSample, .busWrite, .busRead, .busAddrNak] ++
  [.busError, .busStuck, .consoleText, .consoleBreak, .scanStart, .scanDone, .scanFail, .driveStart, .driveAssert,
    .driveRelease, .drivePressEnd, .driveSafe, .driveRefused, .timeSet]

/-! ## Request codes (11.1) -/

abbrev codeIdentify : Byte := 0x01
abbrev codeSoftReset : Byte := 0x02
abbrev codeAlertConfig : Byte := 0x03
abbrev codeAlertNext : Byte := 0x04
abbrev codeAlertClear : Byte := 0x05
abbrev codeTimeRead : Byte := 0x10
abbrev codeTimeTrim : Byte := 0x11
abbrev codeTimeSet : Byte := 0x12
abbrev codeLaneConfig : Byte := 0x20
abbrev codeLaneStatus : Byte := 0x21
abbrev codeGlitchClear : Byte := 0x22
abbrev codeDecodeConfig : Byte := 0x23
abbrev codeDecodeLoad : Byte := 0x24
abbrev codeDecodeRead : Byte := 0x25
abbrev codeClockCheck : Byte := 0x26
abbrev codeRailConfig : Byte := 0x30
abbrev codeTripClear : Byte := 0x31
abbrev codeRailRead : Byte := 0x32
abbrev codeBusConfig : Byte := 0x38
abbrev codeBusStatus : Byte := 0x39
abbrev codeConsoleConfig : Byte := 0x3A
abbrev codeConsoleStatus : Byte := 0x3B
abbrev codeEntryWrite : Byte := 0x40
abbrev codeDefaultWrite : Byte := 0x41
abbrev codeEntryWriteDirect : Byte := 0x42
abbrev codeDefaultWriteDirect : Byte := 0x43
abbrev codeEntryRead : Byte := 0x44
abbrev codeCommit : Byte := 0x45
abbrev codeCommitCancel : Byte := 0x46
abbrev codeHitsRead : Byte := 0x47
abbrev codeHitsClear : Byte := 0x48
abbrev codeTableStatus : Byte := 0x49
abbrev codeArm : Byte := 0x50
abbrev codeStop : Byte := 0x51
abbrev codeTriggerNow : Byte := 0x52
abbrev codeLevelWrite : Byte := 0x53
abbrev codeLevelRead : Byte := 0x54
abbrev codeCounterConfig : Byte := 0x55
abbrev codeCompareWrite : Byte := 0x56
abbrev codeSequencerStatus : Byte := 0x57
abbrev codeRingConfig : Byte := 0x60
abbrev codeRingStart : Byte := 0x61
abbrev codeRingStop : Byte := 0x62
abbrev codeRingRead : Byte := 0x63
abbrev codeRingStatus : Byte := 0x64
abbrev codeScanConfig : Byte := 0x70
abbrev codeScanSubmit : Byte := 0x71
abbrev codeScanAbort : Byte := 0x72
abbrev codeSlotLoad : Byte := 0x73
abbrev codeSlotRead : Byte := 0x74
abbrev codeScanStatus : Byte := 0x75
abbrev codeLineSet : Byte := 0x80
abbrev codeLinePress : Byte := 0x81
abbrev codeLineConfig : Byte := 0x82
abbrev codePairConfig : Byte := 0x83
abbrev codeModeSet : Byte := 0x84
abbrev codeLineStatus : Byte := 0x85

/-- A request code with the least and greatest payload length allowed for it (R203, 11.2). -/
structure RequestForm where
  code : Byte
  least : Nat
  most : Nat
  deriving DecidableEq, Repr

/-- A request of one fixed payload length. -/
def fixedForm (code : Byte) (len : Nat) : RequestForm := { code := code, least := len, most := len }

/-- The 57 requests (11.1) with the sums of their fields' sizes (R203). -/
def requestForms : List RequestForm :=
  [fixedForm codeIdentify 0, fixedForm codeSoftReset 0, fixedForm codeAlertConfig 17, fixedForm codeAlertNext 0,
    fixedForm codeAlertClear 2, fixedForm codeTimeRead 0, fixedForm codeTimeTrim 5, fixedForm codeTimeSet 8] ++
  [fixedForm codeLaneConfig 6, fixedForm codeLaneStatus 0, fixedForm codeGlitchClear 2, fixedForm codeDecodeConfig 6,
    fixedForm codeDecodeLoad 16, fixedForm codeDecodeRead 0, fixedForm codeClockCheck 0] ++
  [fixedForm codeRailConfig 15, fixedForm codeTripClear 1, fixedForm codeRailRead 0, fixedForm codeBusConfig 4,
    fixedForm codeBusStatus 1, fixedForm codeConsoleConfig 5, fixedForm codeConsoleStatus 1] ++
  [fixedForm codeEntryWrite 18, fixedForm codeDefaultWrite 5, fixedForm codeEntryWriteDirect 18,
    fixedForm codeDefaultWriteDirect 5, fixedForm codeEntryRead 2, fixedForm codeCommit 2, fixedForm codeCommitCancel 0,
    fixedForm codeHitsRead 0, fixedForm codeHitsClear 0, fixedForm codeTableStatus 0] ++
  [fixedForm codeArm 0, fixedForm codeStop 0, fixedForm codeTriggerNow 0, fixedForm codeLevelWrite 25,
    fixedForm codeLevelRead 1, fixedForm codeCounterConfig 4, fixedForm codeCompareWrite 5,
    fixedForm codeSequencerStatus 0] ++
  [fixedForm codeRingConfig 11, fixedForm codeRingStart 1, fixedForm codeRingStop 1, fixedForm codeRingRead 7,
    fixedForm codeRingStatus 0] ++
  [fixedForm codeScanConfig 4, { code := codeScanSubmit, least := 4, most := 516 }, fixedForm codeScanAbort 1,
    { code := codeSlotLoad, least := 5, most := 517 }, fixedForm codeSlotRead 1, fixedForm codeScanStatus 0] ++
  [fixedForm codeLineSet 2, fixedForm codeLinePress 3, fixedForm codeLineConfig 5, fixedForm codePairConfig 5,
    fixedForm codeModeSet 1, fixedForm codeLineStatus 0]

/-- Whether a code names a request and the length is one its layout allows (R189). -/
def lengthAllowed (code : Byte) (len : Nat) : Bool :=
  requestForms.any fun f => f.code == code && decide (f.least ≤ len) && decide (len ≤ f.most)

/-! ## Match Table fields (11.2) -/

/-- A field that may be NONE as 255, else below n; the outer none is a value out of range. -/
def finOrNoneAt (n : Nat) (p : List Byte) (i : Nat) : Option (Option (Fin n)) :=
  if byteAt p i = 255 then some none else (toFin n (byteAt p i)).map some

/-- A kind code 0–28, or 255 for ANY (11.2). -/
def kindOrAnyAt (p : List Byte) (i : Nat) : Option (Option Kind) :=
  if byteAt p i = 255 then some none else Kind.all[byteAt p i]?.map some

/-- The five action bytes from byte i on: ring, event class, alert, refuse, strip body; 1 is yes in the last two
(log 38). -/
def actionAt (p : List Byte) (i : Nat) : Option Action := do
  let ring ← finOrNoneAt 4 p i
  let cls ← finOrNoneAt 16 p (i + 1)
  let alert ← finOrNoneAt 4 p (i + 2)
  let refuse ← flagAt p (i + 3)
  let strip ← flagAt p (i + 4)
  return { ring, cls, alert, refuse, strip }

/-- The five action bytes of an entry; 1 is yes in refuse and strip body (log 38). -/
def Action.bytes (a : Action) : List Byte :=
  numOrNone (a.ring.map Fin.val) ++ numOrNone (a.cls.map Fin.val) ++ numOrNone (a.alert.map Fin.val) ++
    numFlag a.refuse ++ numFlag a.strip

/-- The 18 bytes of ENTRY WRITE as an index and an entry, or none where R89 answers RANGE. -/
def entryAt (p : List Byte) : Option (Fin 64 × MatchEntry) := do
  let index ← toFin 64 (byteAt p 0)
  let valid ← flagAt p 1
  let low ← toFin 33 (byteAt p 2)
  let high ← toFin 33 (byteAt p 3)
  if high < low then none
  let kind ← kindOrAnyAt p 4
  let action ← actionAt p 5
  let keyValue := BitVec.ofNat 32 (numAt p 10 4)
  let keyMask := BitVec.ofNat 32 (numAt p 14 4)
  return (index, { valid, sourceLow := low, sourceHigh := high, kind, keyValue, keyMask, action })

/-- The 18 bytes ENTRY READ returns of an entry. -/
def MatchEntry.bytes (index : Nat) (e : MatchEntry) : List Byte :=
  num 1 index ++ numFlag e.valid ++ num 1 e.sourceLow.val ++ num 1 e.sourceHigh.val ++
    numOrNone (e.kind.map Kind.num) ++ e.action.bytes ++ num 4 e.keyValue.toNat ++ num 4 e.keyMask.toNat

/-- The 18 bytes ENTRY READ returns of a default entry: byte 0 reads 255, bytes 1–4 and 10–17 read 0. -/
def Action.defaultBytes (a : Action) : List Byte := num 1 255 ++ num 4 0 ++ a.bytes ++ num 8 0

/-! ## Scans (11.2) -/

/-- Bit i of a bit string is bit i mod 8 of byte i / 8. -/
def bitOf (bytes : List Byte) (i : Nat) : Bool := (bytes.getD (i / 8) 0).getLsbD (i % 8)

/-- The first n bits of a bit string. -/
def bitsOf (bytes : List Byte) (n : Nat) : List Bool := (List.range n).map (bitOf bytes)

/-- Bits as a number, the first the least significant. -/
def bitsToNat : List Bool → Nat
  | [] => 0
  | b :: bs => (if b then 1 else 0) + 2 * bitsToNat bs

/-- Bits packed into n bytes, the unused high bits of the last 0. -/
def packInto : Nat → List Bool → List Byte
  | 0, _ => []
  | n + 1, bs => BitVec.ofNat 8 (bitsToNat (bs.take 8)) :: packInto n (bs.drop 8)

/-- Bits packed into ceil(length / 8) bytes. -/
def packBits (bs : List Bool) : List Byte := packInto ((bs.length + 7) / 8) bs

/-- The scan in a payload from byte i on, or none where R155 answers RANGE: kind unknown, L or n out of range, end state
not allowed, or out bytes not ceil(L/8). -/
def scanAt (p : List Byte) (i : Nat) : Option Scan :=
  let kind := byteAt p i
  let pause := byteAt p (i + 1)
  let len := numAt p (i + 2) 2
  let out := p.drop (i + 4)
  if kind = 0 ∧ pause ≤ 1 ∧ 1 ≤ len ∧ len ≤ 1024 ∧ out.length = (len + 7) / 8 then
    some { kind := .irScan, pause := pause == 1, length := len, out := bitsOf out len }
  else if kind = 1 ∧ pause ≤ 1 ∧ 1 ≤ len ∧ len ≤ 4096 ∧ out.length = (len + 7) / 8 then
    some { kind := .drScan, pause := pause == 1, length := len, out := bitsOf out len }
  else if kind = 2 ∧ pause = 0 ∧ len = 0 ∧ out.length = 0 then
    some { kind := .tapReset, pause := false, length := 0, out := [] }
  else if kind = 3 ∧ pause = 0 ∧ 1 ≤ len ∧ out.length = 0 then
    some { kind := .idleClocks, pause := false, length := len, out := [] }
  else none

/-- A scan in the layout of SCAN SUBMIT. -/
def Scan.bytes (c : Scan) : List Byte :=
  num 1 c.kind.num ++ num 1 (if c.pause then 1 else 0) ++ num 2 c.length ++ packBits c.out

/-- A result payload: a 2-byte bit count and the TDO bytes. -/
def resultBytes (tdo : List Bool) : List Byte := num 2 tdo.length ++ packBits tdo

/-! ## Level records (11.2) -/

/-- The action in the 4 bytes from byte i on. -/
def seqActionAt (p : List Byte) (i : Nat) : Option SeqAction :=
  let arg := byteAt p (i + 1)
  match byteAt p i with
  | 0 => (toFin 4 arg).map .startCounter
  | 1 => (toFin 4 arg).map .stopCounter
  | 2 => (toFin 4 arg).map .clearCounter
  | 3 => (toFin 4 arg).map .injectScan
  | 4 => (toFin 8 arg).map fun d => .pressLine d (numAt p (i + 2) 2)
  | 5 => some .enterSafe
  | 6 => some .seqAlert
  | _ => none

/-- A next of 0–7, 8 STAY or 9 TRIGGER. -/
def nextAt (p : List Byte) (i : Nat) : Option Next :=
  match byteAt p i with
  | 8 => some .stay
  | 9 => some .trigger
  | v => (toFin 8 v).map .level

/-- The actions of a branch: action places beyond the count are not read. -/
def seqActionsAt (p : List Byte) (i : Nat) : Option (List SeqAction) :=
  match byteAt p i with
  | 0 => some []
  | 1 => do return [← seqActionAt p (i + 1)]
  | 2 => do return [← seqActionAt p (i + 1), ← seqActionAt p (i + 5)]
  | _ => none

/-- The branch in the 12 bytes from byte i on, or none where R102 answers RANGE. -/
def branchAt (p : List Byte) (i : Nat) : Option Branch := do
  let enabled ← flagAt p i
  let cls ← toFin 20 (byteAt p (i + 1))
  let next ← nextAt p (i + 2)
  let actions ← seqActionsAt p (i + 3)
  return { enabled, cls, next, actions }

/-- An action in LEVEL READ: its code, its parameter and its width; bytes that 11.2 does not read are 0 (log 10). -/
def SeqAction.bytes : SeqAction → List Byte
  | .startCounter c => num 1 0 ++ num 1 c.val ++ num 2 0
  | .stopCounter c => num 1 1 ++ num 1 c.val ++ num 2 0
  | .clearCounter c => num 1 2 ++ num 1 c.val ++ num 2 0
  | .injectScan c => num 1 3 ++ num 1 c.val ++ num 2 0
  | .pressLine d w => num 1 4 ++ num 1 d.val ++ num 2 w
  | .enterSafe => num 1 5 ++ num 3 0
  | .seqAlert => num 1 6 ++ num 3 0

def Next.num : Next → Nat
  | .level l => l.val
  | .stay => 8
  | .trigger => 9

/-- A branch in LEVEL READ: two action places of 4 bytes, a place beyond the action count 0 (log 10). -/
def Branch.bytes (b : Branch) : List Byte :=
  numFlag b.enabled ++ num 1 b.cls.val ++ num 1 b.next.num ++ num 1 b.actions.length ++
    ((b.actions.flatMap SeqAction.bytes) ++ List.replicate 8 0).take 8

/-! ## Sets -/

/-- The numbers of list `l` whose bit of the set is 1. -/
def membersOf {n : Nat} (w : Nat) (l : List (Fin n)) : List (Fin n) := l.filter fun i => w.testBit i.val

/-- A list of flags as a set, member n at bit n. -/
def setToNat (l : List Bool) : Nat := bitsToNat l

end Sys2Proof.Machine
end

