-- ==== Sys2Proof/Machine/Flags.lean ====
section
/-! DEFINITION. Source codes, record flags and record keys (R3, 11.4), and the making of a record. -/

namespace Sys2Proof.Machine

/-! ## Sources (1.1) -/

def srcLane (i : Fin 16) : Fin 33 := ⟨i.val, by omega⟩
def srcPstate : Fin 33 := 16
def srcClock : Fin 33 := 17
def srcRail (c : Fin 8) : Fin 33 := ⟨18 + c.val, by omega⟩
def srcBus (s : Fin 2) : Fin 33 := ⟨26 + s.val, by omega⟩
def srcConsole (r : Fin 2) : Fin 33 := ⟨28 + r.val, by omega⟩
def srcScan : Fin 33 := 30
def srcDrive : Fin 33 := 31
def srcTime : Fin 33 := 32

/-- A record without body, flags, origin; its lost field is filled when it is placed (R1, R8). -/
def newRecord (source : Fin 33) (kind : Kind) (stamp : Stamp) (key : Word) : Record :=
  { source, kind, stamp, key, body := [], lost := 0, flags := {}, origin := none }

/-- SCAN-START and DRIVE-START are guard records (R9). -/
def Kind.isGuard : Kind → Bool
  | .scanStart | .driveStart => true
  | _ => false

/-- The origin of an action by whether a station request asked for it (R6). -/
def originOf (t : Option Ticket) : Origin := if t.isSome then .station else .sequencer

/-! ## Keys -/

/-- A field of a key: the value in `width` bits from bit `lo` on. -/
def field (lo width v : Nat) : Word := BitVec.ofNat 32 (v % 2 ^ width) <<< lo

/-- A Bool as a number. -/
def bit (b : Bool) : Nat := if b then 1 else 0

/-- EDGE: lane 31–28, level 27. -/
def edgeKey (lane : Fin 16) (level : Bool) : Word := field 28 4 lane.val ||| field 27 1 (bit level)

/-- GLITCH: lane 31–28, width 27–12, saturating at 65535 (R22). -/
def glitchKey (lane : Fin 16) (us : Nat) : Word := field 28 4 lane.val ||| field 12 16 (min us 65535)

/-- A platform state in a STATE key: NONE is 7. -/
def keyState (s : Option PlatformState) : Nat := (s.map PlatformState.num).getD 7

/-- STATE and SEQ-VIOLATION: old state 31–29, new state 28–26, code 25–23. -/
def stateKey (old new : Option PlatformState) (code : Fin 8) : Word :=
  field 29 3 (keyState old) ||| field 26 3 (keyState new) ||| field 23 3 code.val

/-- CLOCK-RESULT: core 31–24, board reference 23–16, return clock 15–8. -/
def clockKey (core bref rclk : Nat) : Word := field 24 8 core ||| field 16 8 bref ||| field 8 8 rclk

/-- A window state in a RAIL key: BELOW 0, INSIDE 1, ABOVE 2. -/
def keyWindow : Window → Nat
  | .below => 0
  | .inside => 1
  | .above => 2
  | .unknown => 3

/-- RAIL kinds: channel 31–29, window state 28–27, jump 26, value 15–0. -/
def railKey (c : Fin 8) (w : Window) (jump : Bool) (mv : Nat) : Word :=
  field 29 3 c.val ||| field 27 2 (keyWindow w) ||| field 26 1 (bit jump) ||| field 0 16 mv

/-- BUS kinds: address and direction 31–24, first data byte 23–16, second 15–8, count or bit count 7–0. -/
def busKey (address first second : Byte) (n : Nat) : Word :=
  field 24 8 address.toNat ||| field 16 8 first.toNat ||| field 8 8 second.toNat ||| field 0 8 n

/-- CONSOLE-TEXT: the first four text bytes, absent ones 0. -/
def textKey (bytes : List Byte) : Word :=
  field 24 8 (byteAt bytes 0) ||| field 16 8 (byteAt bytes 1) ||| field 8 8 (byteAt bytes 2) |||
    field 0 8 (byteAt bytes 3)

/-- The reasons of a SCAN key (11.4). -/
inductive ScanReason where
  | none | noPower | guarded | timeout | aborted
  deriving DecidableEq, Repr

def ScanReason.num : ScanReason → Nat
  | .none => 0
  | .noPower => 1
  | .guarded => 2
  | .timeout => 3
  | .aborted => 4

/-- The scan value (R3): the first 22 out bits of an IR-SCAN, L of a DR-SCAN, n of IDLE-CLOCKS, 0 of a TAP-RESET. -/
def scanValue (c : Scan) : Nat :=
  match c.kind with
  | .irScan => bitsToNat (c.out.take 22)
  | .drScan => c.length
  | .tapReset => 0
  | .idleClocks => c.length

/-- SCAN kinds: reason 31–24, kind 23–22, scan value 21–0. -/
def scanKey (r : ScanReason) (c : Scan) : Word :=
  field 24 8 r.num ||| field 22 2 c.kind.num ||| field 0 22 (scanValue c)

/-- The reasons of a DRIVE key (11.4). -/
inductive DriveReason where
  | none | state | guarded | interlock | safe | busy
  deriving DecidableEq, Repr

def DriveReason.num : DriveReason → Nat
  | .none => 0
  | .state => 1
  | .guarded => 2
  | .interlock => 3
  | .safe => 4
  | .busy => 5

/-- The status a refusal reason answers with. -/
def DriveReason.status : DriveReason → Status
  | .none => .done
  | .state => .state
  | .guarded => .guarded
  | .interlock => .interlock
  | .safe => .safe
  | .busy => .busy

/-- DRIVE kinds: line 31–29, action 28–27, reason 26–24, width 15–0 (0 unless the action is PRESS). -/
def driveKey (line : Fin 8) (action : DriveAction) (reason : DriveReason) (width : Nat) : Word :=
  field 29 3 line.val ||| field 27 2 action.num ||| field 24 3 reason.num |||
    field 0 16 (if action = .press then width else 0)

/-- The line field of a DRIVE key. -/
def keyLine (k : Word) : Fin 8 := (k.extractLsb' 29 3).toFin

/-- Whether the action field of a DRIVE key is SAFE. -/
def keyIsSafe (k : Word) : Bool := k.extractLsb' 27 2 == 3

/-- TIME-SET: the low 32 bits of the new value. -/
def timeKey (s : Stamp) : Word := s.setWidth 32

end Sys2Proof.Machine
end

