-- ==== Sys2Proof/Machine/Ops.lean ====
section
/-! DEFINITION. The shared operations: members of a vector, alerts (10.6), responses (10.4), the placing of records
(1.2), and the serving of requests (10.2). -/

namespace Sys2Proof.Machine

/-! ## Members of a vector -/

/-- Replace member i. -/
def put {α : Type} {n : Nat} (v : Vector α n) (i : Fin n) (x : α) : Vector α n := v.set i.val x i.isLt

/-- Change every member. -/
def mapAll {α : Type} {n : Nat} (f : α → α) (v : Vector α n) : Vector α n :=
  ⟨(v.toList.map f).toArray, by simp⟩

/-- Change every member by its number. -/
def mapEach {α : Type} {n : Nat} (f : Fin n → α → α) (v : Vector α n) : Vector α n :=
  ⟨((List.finRange n).map fun i => f i v[i]).toArray, by simp⟩

/-- Run an operation for each of a list of things, in order. -/
def forEach {α : Type} (l : List α) (f : α → State → State) (s : State) : State := l.foldl (fun t x => f x t) s

/-! ## Alerts -/

/-- The place of an alert source in the list, its number less 1 (10.6). -/
def AlertSource.index : AlertSource → Fin 16
  | .triggered => 0
  | .done => 1
  | .railTrip => 2
  | .safe => 3
  | .scanFault => 4
  | .seqViolation => 5
  | .busStuck => 6
  | .ringGap => 7
  | .recordLoss => 8
  | .tableSwap => 9
  | .seqAlert => 10
  | .matchAlert n => ⟨11 + n.val, by omega⟩
  | .timeSetApplied => 15

/-- A source set pending (R195); a change from not pending with a level above M makes an announcement due (R197). -/
def Slu.raise (u : Slu) (a : AlertSource) : Slu :=
  let x := u.alerts[a.index]
  { u with
    alerts := put u.alerts a.index { x with pending := true }
    due := u.due || (!x.pending && decide (u.mask < x.level)) }

/-- A block sets an alert source pending (R195). -/
def setAlert (a : AlertSource) (s : State) : State := { s with slu := s.slu.raise a }

/-! ## Responses -/

/-- A response joins the response list, and its request counts as answered on the owed list (R191). -/
def Slu.answer (u : Slu) (t : Ticket) (st : Status) (p : List Byte) : Slu :=
  { u with
    responses := u.responses ++ [{ ticket := t, status := st, payload := p }]
    owed := u.owed.map fun o => { o with answered := o.answered || o.ticket.id == t.id } }

/-- The part makes a response. -/
def respond (t : Ticket) (st : Status) (p : List Byte) (s : State) : State := { s with slu := s.slu.answer t st p }

/-- A response to a request that may come from the sequencer, which gets none (R181). -/
def respondTo (t : Option Ticket) (st : Status) (p : List Byte) (s : State) : State :=
  match t with
  | some t => respond t st p s
  | none => s

/-- A request answered DONE with the payload its owner's rule gives. -/
def done (q : Request) (p : List Byte) (s : State) : State := respond q.ticket .done p s

/-- A request answered with another status and an empty payload (10.4). -/
def refuse (q : Request) (st : Status) (s : State) : State := respond q.ticket st [] s

/-! ## Records -/

/-- A record placed in its FIFO takes the lost count, which returns to 0 (R8). -/
def Hold.place (h : Hold) (r : Record) : Hold := { h with fifo := h.fifo ++ [{ r with lost := h.lost }], lost := 0 }

/-- A record produced at its source: placed, waiting if it is a guard record, else discarded and counted (R7–R9). -/
def Hold.accept (h : Hold) (r : Record) : Hold :=
  if h.fifo.length < Config.fifoPlaces then h.place r
  else if r.kind.isGuard then { h with waiting := h.waiting ++ [r] }
  else { h with lost := min 255 (h.lost + 1) }

/-- Whether producing the record raises the lost count from 0 to 1 (R8). -/
def Hold.beginsLoss (h : Hold) (r : Record) : Bool :=
  !decide (h.fifo.length < Config.fifoPlaces) && !r.kind.isGuard && h.lost == 0

/-- A source produces a record (R1): it meets its holding FIFO, and a first discard sets RECORD-LOSS. -/
def produce (r : Record) (s : State) : State :=
  { s with
    hold := put s.hold r.source (s.hold[r.source].accept r)
    slu := if s.hold[r.source].beginsLoss r then s.slu.raise .recordLoss else s.slu }

/-- The oldest record leaves its FIFO, and the oldest waiting guard record takes the place (R7, R9). -/
def Hold.release (h : Hold) : Hold :=
  let h1 := { h with fifo := h.fifo.drop 1 }
  match h.waiting with
  | g :: gs => { h1 with waiting := gs }.place g
  | [] => h1

/-! ## Serving requests -/

/-- The oldest request of the ingress queue is served if it has this code and the row's payload (log 4); it leaves the
queue at its serving (R190). -/
def serveWhen (code : Byte) (fits : List Byte → Bool) (handler : Request → State → State) (s : State) : State :=
  match s.slu.ingress with
  | q :: rest =>
    if q.ticket.code = code ∧ fits q.payload = true then handler q { s with slu := { s.slu with ingress := rest } }
    else s
  | [] => s

/-- A row that serves every payload of its code. -/
def serve (code : Byte) (handler : Request → State → State) (s : State) : State :=
  serveWhen code (fun _ => true) handler s

/-- A row of a code whose byte i names a mode: its own value, and every value above the last (answered RANGE; log 22). -/
def modeFits (i own last : Nat) (p : List Byte) : Bool := byteAt p i == own || decide (last < byteAt p i)

/-! ## Counters of the clock presence check (R39) -/

/-- A running check has a counter at 255: its end is due. -/
def ClockCheck.over (c : ClockCheck) : Bool := c.running.isSome && (c.core == 255 || c.bref == 255 || c.rclk == 255)

/-- Rising edges of the core clock, BREF and RCLK counted by a running check, each counter to 255; none once it is over. -/
def ClockCheck.count (c : ClockCheck) (core bref rclk : Nat) : ClockCheck :=
  if c.running.isSome && !c.over then
    { c with core := min 255 (c.core + core), bref := min 255 (c.bref + bref), rclk := min 255 (c.rclk + rclk) }
  else c

/-! ## Levels the blocks read of one another -/

/-- The time base value at this core clock. -/
abbrev State.now (s : State) : Stamp := s.tbu.base

/-- The accepted level of a lane. -/
abbrev State.laneLevel (s : State) (i : Fin 16) : Bool := s.stu.lanes[i].accepted

/-- The protected trip held: some channel has protect on and its trip latch set (R50). -/
def Rmu.tripHeld (u : Rmu) : Bool := (List.finRange 8).any fun c => u.channels[c].protect && u.channels[c].tripped

end Sys2Proof.Machine
end

