-- ==== Sys2Proof/Machine/Bus.lean ====
section
/-! DEFINITION. The bus decoders (4.1–4.4). -/

namespace Sys2Proof.Machine

/-- Replace a bus decoder. -/
def setBus (g : Fin 2) (b : Bus) (s : State) : State := { s with btu := { s.btu with buses := put s.btu.buses g b } }

/-! ## Line filters (R59) -/

/-- The filter width in core clocks: ceil(w / 8) of 0, 50, 100, 200 ns (4.1). -/
def Bus.filterClocks (b : Bus) : Nat :=
  match b.width with
  | 0 => 0
  | 1 => 7
  | 2 => 13
  | 3 => 25

/-- The level on a bus line's pin. -/
def State.busPin (s : State) (g : Fin 2) (l : BusLine) : Bool :=
  match l with
  | .clock => s.pins.busClock[g]
  | .data => s.pins.busData[g]

/-- Set the level on a bus line's pin. -/
def setBusPin (g : Fin 2) (l : BusLine) (level : Bool) (s : State) : State :=
  match l with
  | .clock => { s with pins := { s.pins with busClock := put s.pins.busClock g level } }
  | .data => { s with pins := { s.pins with busData := put s.pins.busData g level } }

/-- A bus line's filter. -/
def Bus.line (b : Bus) (l : BusLine) : LineFilter :=
  match l with
  | .clock => b.clockLine
  | .data => b.dataLine

/-- Replace a bus line's filter. -/
def Bus.setLine (b : Bus) (l : BusLine) (f : LineFilter) : Bus :=
  match l with
  | .clock => { b with clockLine := f }
  | .data => { b with dataLine := f }

/-- A bus line's change due to be accepted at this clock, with the stamp it carries (R59). -/
def State.busChangeDue (s : State) (g : Fin 2) (l : BusLine) : Option Stamp :=
  let b := s.btu.buses[g]
  if b.enabled then
    match (b.line l).filter with
    | .pending t0 n => if b.filterClocks ≤ n then some t0 else none
    | .steady => if b.filterClocks = 0 ∧ s.busPin g l ≠ (b.line l).accepted then some s.now else none
  else none

/-- A bus line's filter with the change accepted. -/
def LineFilter.accept (f : LineFilter) : LineFilter := { accepted := !f.accepted, filter := .steady }

/-- A sample that differs makes a STEADY filter of non-zero width PENDING; a sample that is back drops the departure
(R59). -/
def State.filterSample (s : State) (g : Fin 2) (l : BusLine) : LineFilter :=
  let b := s.btu.buses[g]
  let f := b.line l
  let differs := s.busPin g l != f.accepted
  match f.filter with
  | .steady => if differs ∧ b.filterClocks ≠ 0 then { f with filter := .pending s.now 0 } else f
  | .pending _ n => if differs = false ∧ n < b.filterClocks then { f with filter := .steady } else f

/-! ## Records (R61–R65) -/

/-- The record a START opens (R61). -/
def openBusRecord (t0 : Stamp) : BusRecord :=
  { stamp := t0, address := 0, first := 0, second := 0, body := [], count := 0, truncated := false }

/-- A bus record of a kind, with its last key field. -/
def busRecord (g : Fin 2) (k : Kind) (o : BusRecord) (address : Byte) (last : Nat) (continued : Bool) : Record :=
  { newRecord (srcBus g) k o.stamp (busKey address o.first o.second last) with
    body := if k = .busAddrNak then [] else o.body
    flags := { truncated := o.truncated && k != .busAddrNak, continued := continued } }

/-- The address field as far as received: in ADDRESS the bits taken, most significant first, the rest 0 (R65). -/
def Bus.addressSoFar (b : Bus) (o : BusRecord) : Byte :=
  if b.phase = .address then b.byte <<< (8 - b.bitCount) else o.address

/-- The BUS-ERROR record of the open record, with the bit count (R65). -/
def Bus.errorRecord (b : Bus) (g : Fin 2) (o : BusRecord) : Record :=
  busRecord g .busError o (b.addressSoFar o) b.bitCount false

/-- The record that closes the open one at a START or STOP (R63–R65): inside a byte a BUS-ERROR, else by the phase. -/
def Bus.closingRecord (b : Bus) (g : Fin 2) (o : BusRecord) (continued : Bool) : Record :=
  match b.phase with
  | .ignore => busRecord g .busAddrNak o o.address o.count continued
  | .data =>
    if b.bitCount = 0 then
      busRecord g (if o.address.getLsbD 0 then .busRead else .busWrite) o o.address o.count continued
    else b.errorRecord g o
  | _ => b.errorRecord g o

/-- The open record, if any, is closed into the holding FIFO. -/
def closeBus (g : Fin 2) (continued : Bool) (s : State) : State :=
  let b := s.btu.buses[g]
  match b.openRecord with
  | some o => produce (b.closingRecord g o continued) (setBus g { b with openRecord := none } s)
  | none => s

/-! ## Conditions (R60) -/

/-- A data change accepted during a high phase: the phase no longer carries a bit. -/
def Bus.acceptData (b : Bus) : Bus := { b with dataLine := b.dataLine.accept, highClean := false }

/-- A START: the open record closes, and a new one opens (R61, R64, R65). -/
def busStart (g : Fin 2) (s : State) : State :=
  match s.busChangeDue g .data with
  | some t0 =>
    let b := s.btu.buses[g]
    if b.clockLine.accepted ∧ b.dataLine.accepted then
      let s1 := closeBus g true (setBus g b.acceptData s)
      setBus g
        { s1.btu.buses[g] with phase := .address, bitCount := 0, byte := 0, openRecord := some (openBusRecord t0) } s1
    else s
  | none => s

/-- A STOP: the open record closes and the decoder returns to IDLE, with bit count 0 also inside a byte (R63, R65;
log 41). -/
def busStop (g : Fin 2) (s : State) : State :=
  match s.busChangeDue g .data with
  | some _ =>
    let b := s.btu.buses[g]
    if b.clockLine.accepted ∧ b.dataLine.accepted = false then
      let s1 := closeBus g false (setBus g b.acceptData s)
      setBus g { s1.btu.buses[g] with phase := .idle, bitCount := 0, byte := 0 } s1
    else s
  | none => s

/-- A data change accepted while the clock is low: the level is simply updated (R60). -/
def busDataLow (g : Fin 2) (s : State) : State :=
  let b := s.btu.buses[g]
  if b.clockLine.accepted = false ∧ (s.busChangeDue g .data).isSome then
    setBus g { b with dataLine := b.dataLine.accept } s
  else s

/-- The departure of a bus line's sample, its return, and the silent acceptance of a data change (R59, R60; log 25). -/
def busLineDeparture (g : Fin 2) (l : BusLine) (s : State) : State :=
  if s.btu.buses[g].enabled then
    match s.busChangeDue g l with
    | some _ =>
      match l with
      | .data => busDataLow g s
      | .clock => s
    | none => setBus g (s.btu.buses[g].setLine l (s.filterSample g l)) s
  else s

/-! ## Clock edges (R60–R62, R66) -/

/-- An accepted clock rise: a high phase begins, its bit read from the data level, and the stuck timer stops. -/
def Bus.clockRise (b : Bus) : Bus :=
  { b with clockLine := b.clockLine.accept, highClean := true, highBit := b.dataLine.accepted }

/-- An accepted clock fall: the stuck timer starts from 0 (R66). -/
def Bus.clockFall (b : Bus) : Bus :=
  { b with clockLine := b.clockLine.accept, highClean := false, stuckTimer := 0 }

/-- Whether the present high phase gives a bit at its end (R60, R61). -/
def Bus.takesBit (b : Bus) : Bool := b.highClean && (b.phase == .address || b.phase == .data)

/-- One bit of the byte in progress (R61). -/
def Bus.takeBit (b : Bus) : Bus :=
  { b with byte := (b.byte <<< 1) ||| (if b.highBit then 1 else 0), bitCount := b.bitCount + 1 }

/-- One data byte of the open record (R62). -/
def BusRecord.addByte (o : BusRecord) (x : Byte) : BusRecord :=
  let n := min 65535 (o.count + 1)
  { o with
    count := n
    first := if n = 1 then x else o.first
    second := if n = 2 then x else o.second
    body := if n ≤ 16 then o.body ++ [x] else o.body
    truncated := o.truncated || decide (17 ≤ n) }

/-- The acknowledge ends the byte (R61, R62): an address byte sets the field and the phase, a data byte is kept. -/
def Bus.endByte (b : Bus) : Bus :=
  let o := b.openRecord
  if b.phase = .address then
    { b with
      phase := if b.highBit then .ignore else .data
      openRecord := o.map fun o => { o with address := b.byte }
      bitCount := 0
      byte := 0 }
  else { b with openRecord := o.map fun o => o.addByte b.byte, bitCount := 0, byte := 0 }

/-- BIT_TAKEN: an accepted clock rise outside a stuck episode, or an accepted fall that ends no byte (R60, R61, R66). -/
def bitTaken (g : Fin 2) (s : State) : State :=
  let b := s.btu.buses[g]
  if (s.busChangeDue g .clock).isSome then
    if b.clockLine.accepted then
      if b.takesBit then (if b.bitCount < 8 then setBus g b.takeBit.clockFall s else s) else setBus g b.clockFall s
    else if b.stuck then s
    else setBus g b.clockRise s
  else s

/-- BUS_BYTE_END: the accepted clock fall that ends an acknowledge (R61, R62). -/
def busByteEnd (g : Fin 2) (s : State) : State :=
  let b := s.btu.buses[g]
  if (s.busChangeDue g .clock).isSome ∧ b.clockLine.accepted = true ∧ b.takesBit = true ∧ 8 ≤ b.bitCount then
    setBus g b.endByte.clockFall s
  else s

/-! ## Stuck clock (R66) -/

/-- Whether the stuck timeout runs out (R66). -/
def Bus.stuckDue (b : Bus) : Bool :=
  b.enabled && !b.clockLine.accepted && !b.stuck && decide (Config.clocksPerMs * b.timeout ≤ b.stuckTimer)

/-- The stuck timeout: the open record closes as BUS-ERROR, BUS-STUCK is produced, the episode begins, and the decoder is
in IDLE with bit count 0 (R66; log 41). -/
def stuckTimeout (g : Fin 2) (s : State) : State :=
  let b := s.btu.buses[g]
  if b.stuckDue then
    let s1 := setBus g { b with openRecord := none, phase := .idle, bitCount := 0, byte := 0, stuck := true } s
    let s2 :=
      match b.openRecord with
      | some o => produce (b.errorRecord g o) s1
      | none => s1
    setAlert .busStuck (produce (newRecord (srcBus g) .busStuck s.now 0) s2)
  else s

/-- The accepted rise that ends a stuck episode; a high phase begins with it (R60, R66). -/
def stuckEpisodeEnd (g : Fin 2) (s : State) : State :=
  let b := s.btu.buses[g]
  if (s.busChangeDue g .clock).isSome ∧ b.clockLine.accepted = false ∧ b.stuck = true then
    setBus g { b.clockRise with stuck := false } s
  else s

/-! ## Requests (4.4) -/

/-- The restart of a segment by BUS CONFIG, from the present pin levels if enabled (R67). -/
def Bus.restart (b : Bus) (enabled : Bool) (width : Fin 4) (timeout : Nat) (clock data : Bool) : Bus :=
  { b with
    enabled, width, timeout
    clockLine := { accepted := !enabled || clock, filter := .steady }
    dataLine := { accepted := !enabled || data, filter := .steady }
    highClean := false, highBit := false, phase := .idle, bitCount := 0, byte := 0, openRecord := none
    stuckTimer := 0, stuck := false }

def serveBusConfig (q : Request) (s : State) : State :=
  match toFin 2 (byteAt q.payload 0), yesNoAt q.payload 1, toFin 4 (byteAt q.payload 2) with
  | some g, some enabled, some width =>
    if byteAt q.payload 3 = 0 then refuse q .range s
    else
      done q []
        (setBus g
          (s.btu.buses[g].restart enabled width (byteAt q.payload 3) s.pins.busClock[g] s.pins.busData[g]) s)
  | _, _, _ => refuse q .range s

/-- What BUS STATUS carries (R68). -/
def Bus.bytes (b : Bus) : List Byte :=
  numYesNo b.enabled ++ num 1 b.width.val ++ num 1 b.timeout ++ num 1 (bit b.clockLine.accepted) ++
    num 1 (bit b.dataLine.accepted) ++ num 1 b.phase.num ++ num 1 b.bitCount ++ numFlag b.stuck ++
    numTimer b.stuckTimer ++
    group 9 (b.openRecord.map fun o => numStamp o.stamp ++ num 1 (b.addressSoFar o).toNat ++ num 2 o.count)

def serveBusStatus (q : Request) (s : State) : State :=
  match toFin 2 (byteAt q.payload 0) with
  | some g => done q s.btu.buses[g].bytes s
  | none => refuse q .range s

/-! ## Commands -/

/-- BUS_LINE_DEPARTURE (R59). -/
def execBusLineDeparture (g : Fin 2) (l : BusLine) (pin : Bool) (s : State) : Outcome :=
  .next (busLineDeparture g l (setBusPin g l pin s))

/-- BUS_START (R61, R64, R65). -/
def execBusStart (g : Fin 2) (s : State) : Outcome := .next (busStart g s)

/-- BUS_STOP (R63, R65). -/
def execBusStop (g : Fin 2) (s : State) : Outcome := .next (busStop g s)

/-- BIT_TAKEN (R60, R61). -/
def execBitTaken (g : Fin 2) (s : State) : Outcome := .next (bitTaken g s)

/-- BUS_BYTE_END (R61, R62). -/
def execBusByteEnd (g : Fin 2) (s : State) : Outcome := .next (busByteEnd g s)

/-- STUCK_TIMEOUT (R66). -/
def execStuckTimeout (g : Fin 2) (s : State) : Outcome := .next (stuckTimeout g s)

/-- STUCK_EPISODE_END (R66). -/
def execStuckEpisodeEnd (g : Fin 2) (s : State) : Outcome := .next (stuckEpisodeEnd g s)

/-- BUS CONFIG (R67). -/
def execBusConfig (s : State) : Outcome := .next (serve codeBusConfig serveBusConfig s)

/-- BUS STATUS (R68). -/
def execBusStatus (s : State) : Outcome := .next (serve codeBusStatus serveBusStatus s)

end Sys2Proof.Machine
end

