-- ==== Sys2Proof/Machine/Console.lean ====
section
/-! DEFINITION. The console receivers (4.5, 4.6). -/

namespace Sys2Proof.Machine

/-- Replace a console receiver. -/
def setConsole (r : Fin 2) (c : Console) (s : State) : State :=
  { s with btu := { s.btu with consoles := put s.btu.consoles r c } }

/-- Set the level on a CON pin. -/
def setConPin (r : Fin 2) (level : Bool) (s : State) : State :=
  { s with pins := { s.pins with con := put s.pins.con r level } }

/-! ## Text records (R73) -/

/-- The CONSOLE-TEXT record of an open record (R73). -/
def textRecord (r : Fin 2) (o : TextRecord) : Record :=
  { newRecord (srcConsole r) .consoleText o.stamp (textKey o.bytes) with
    body := o.bytes, flags := { framing := o.framing } }

/-- The open record, if any, closes as CONSOLE-TEXT, and the idle timer has nothing to close. -/
def closeText (r : Fin 2) (s : State) : State :=
  let c := s.btu.consoles[r]
  match c.openRecord with
  | some o => produce (textRecord r o) (setConsole r { c with openRecord := none, idleTimer := none } s)
  | none => s

/-- The open record with a byte appended, opened at the byte's detection stamp if none is open (R73). -/
def Console.appended (c : Console) (x : Byte) (framing : Bool) : TextRecord :=
  match c.openRecord with
  | some o => { o with bytes := o.bytes ++ [x], framing := o.framing || framing }
  | none => { stamp := c.detect, bytes := [x], framing := framing }

/-- A byte is added, and the record closes at a line feed or at 16 bytes; otherwise the idle timer restarts (R73). -/
def addText (r : Fin 2) (x : Byte) (framing : Bool) (s : State) : State :=
  let c := s.btu.consoles[r]
  let o := c.appended x framing
  let s1 := setConsole r { c with openRecord := some o, idleTimer := some 0 } s
  if x = 0x0A ∨ 16 ≤ o.bytes.length then closeText r s1 else s1

/-! ## Sample ticks (R70–R72) -/

/-- What a sample tick does, by the receive state, the tick count and the sample. -/
inductive TickEffect where
  /-- The receive state moves; the tick count, the data bits, the stamp and the timer go with it. -/
  | move
  /-- The frame completes as a byte with or without a bad stop bit; the state after it. -/
  | byte (framing : Bool) (next : RxState)
  /-- The frame is a break. -/
  | break_
  deriving DecidableEq, Repr

/-- The data bits of a frame as a byte, bit 0 least significant (R71). -/
def Console.data (c : Console) : Byte := BitVec.ofNat 8 (bitsToNat c.bits)

/-- What the tick now due does for a sample (R70–R72). The tick count at this tick is one more than held. -/
def Console.tickEffect (c : Console) (pin : Bool) : TickEffect :=
  match c.rx with
  | .stop =>
    if c.ticks + 1 < 152 then .move
    else if pin then .byte false .hunt
    else if c.data = 0 then .move
    else .byte true .waitHigh
  | .breakCheck => if pin then .byte true .hunt else if c.ticks + 1 < 160 then .move else .break_
  | _ => .move

/-- The tick taken: the counter has restarted, and the count since detection rises. -/
def Console.ticked (c : Console) : Console := { c with tickDue := false, ticks := c.ticks + 1 }

/-- A tick that completes no frame (R70, R71; entry to BREAK-CHECK, R72). -/
def Console.moved (c : Console) (pin : Bool) (now : Stamp) : Console :=
  let t := c.ticked
  match c.rx with
  | .waitHigh => { c with tickDue := false, rx := if pin then .hunt else .waitHigh }
  | .hunt =>
    if pin then { c with tickDue := false }
    else { c with tickDue := false, rx := .confirm, detect := now, ticks := 0, bits := [] }
  | .confirm =>
    if t.ticks < 8 then t
    else if pin then { t with rx := .hunt }
    else { t with rx := .data, idleTimer := none }
  | .data =>
    if t.ticks < 8 + 16 * (c.bits.length + 1) then t
    else { t with bits := c.bits ++ [pin], rx := if 7 ≤ c.bits.length then .stop else .data }
  | .stop => if t.ticks < 152 then t else { t with rx := .breakCheck }
  | .breakCheck => t

/-- SAMPLE_TICK: a sample tick that completes no frame (R70–R72). -/
def sampleTick (r : Fin 2) (s : State) : State :=
  let c := s.btu.consoles[r]
  let pin := s.pins.con[r]
  if c.enabled ∧ c.tickDue ∧ c.tickEffect pin = .move then setConsole r (c.moved pin s.now) s else s

/-- CONSOLE_BYTE: the sample tick at which a frame completes as a byte (R71–R73). -/
def consoleByte (r : Fin 2) (s : State) : State :=
  let c := s.btu.consoles[r]
  if c.enabled ∧ c.tickDue then
    match c.tickEffect s.pins.con[r] with
    | .byte framing next => addText r c.data framing (setConsole r { c.ticked with rx := next } s)
    | _ => s
  else s

/-- CONSOLE_BREAK: the line still low at tick 160 (R72). -/
def consoleBreak (r : Fin 2) (s : State) : State :=
  let c := s.btu.consoles[r]
  if c.enabled ∧ c.tickDue then
    match c.tickEffect s.pins.con[r] with
    | .break_ =>
      produce (newRecord (srcConsole r) .consoleBreak c.detect 0)
        (closeText r (setConsole r { c.ticked with rx := .waitHigh } s))
    | _ => s
  else s

/-! ## Idle close (R74) -/

/-- Whether the idle timer has reached idle close × 100 µs with a record open. -/
def Console.idleDue (c : Console) : Bool :=
  c.openRecord.isSome && decide (0 < c.idleClose) && (c.idleTimer.any fun t => decide (12500 * c.idleClose ≤ t))

def idleClose (r : Fin 2) (s : State) : State := if s.btu.consoles[r].idleDue then closeText r s else s

/-! ## Requests (4.6) -/

/-- The receiver after CONSOLE CONFIG: settings stored, the frame abandoned, WAIT-HIGH, the idle timer stopped (R75). -/
def Console.configured (c : Console) (enabled : Bool) (d idle : Nat) : Console :=
  { c with
    enabled, divisor := d, idleClose := idle, tickCounter := 1, tickDue := false, rx := .waitHigh, detect := 0
    ticks := 0, bits := [], idleTimer := none }

def serveConsoleConfig (q : Request) (s : State) : State :=
  match toFin 2 (byteAt q.payload 0), yesNoAt q.payload 1 with
  | some r, some enabled =>
    let d := numAt q.payload 2 2
    if d = 0 then refuse q .range s
    else
      let s1 := closeText r s
      done q [] (setConsole r (s1.btu.consoles[r].configured enabled d (byteAt q.payload 4)) s1)
  | _, _ => refuse q .range s

/-- What CONSOLE STATUS carries (R76); a stopped idle timer reads 0 (log 10). -/
def Console.statusBytes (c : Console) : List Byte :=
  numYesNo c.enabled ++ num 2 c.divisor ++ num 1 c.idleClose ++ num 1 c.rx.num ++
    group 12 (c.openRecord.map fun o =>
      numStamp o.stamp ++ num 1 o.bytes.length ++ numFlag o.framing ++ numTimer (c.idleTimer.getD 0))

def serveConsoleStatus (q : Request) (s : State) : State :=
  match toFin 2 (byteAt q.payload 0) with
  | some r => done q s.btu.consoles[r].statusBytes s
  | none => refuse q .range s

/-! ## Commands -/

/-- SAMPLE_TICK (R70–R72). -/
def execSampleTick (r : Fin 2) (pin : Bool) (s : State) : Outcome := .next (sampleTick r (setConPin r pin s))

/-- CONSOLE_BYTE (R71–R73). -/
def execConsoleByte (r : Fin 2) (pin : Bool) (s : State) : Outcome := .next (consoleByte r (setConPin r pin s))

/-- CONSOLE_BREAK (R72): the sample at tick 160 is low. -/
def execConsoleBreak (r : Fin 2) (s : State) : Outcome := .next (consoleBreak r (setConPin r false s))

/-- IDLE_CLOSE (R74). -/
def execIdleClose (r : Fin 2) (s : State) : Outcome := .next (idleClose r s)

/-- CONSOLE CONFIG (R75). -/
def execConsoleConfig (s : State) : Outcome := .next (serve codeConsoleConfig serveConsoleConfig s)

/-- CONSOLE STATUS (R76). -/
def execConsoleStatus (s : State) : Outcome := .next (serve codeConsoleStatus serveConsoleStatus s)

end Sys2Proof.Machine
end

