-- ==== Sys2Proof/Machine/Rail.lean ====
section
/-! DEFINITION. The Rail Monitor Unit (chapter 3): windows, line notices and blanking, the converter's choice, requests. -/

namespace Sys2Proof.Machine

/-- Replace a channel. -/
def Rmu.setChannel (u : Rmu) (c : Fin 8) (x : Channel) : Rmu := { u with channels := put u.channels c x }

def setChannel (c : Fin 8) (x : Channel) (s : State) : State := { s with rmu := s.rmu.setChannel c x }

/-- A record of a rail channel, with the value in its key and SATURATED as the conversion had it (R44, R47). -/
def railRecord (c : Fin 8) (k : Kind) (w : Window) (jump : Bool) (mv : Nat) (sat blanked : Bool) (at_ : Stamp) : Record :=
  { newRecord (srcRail c) k at_ (railKey c w jump mv) with flags := { saturated := sat, blanked := blanked } }

/-! ## Conversion values and windows (R44–R46) -/

/-- The conversion of a code under a gain: min(65535, floor(n × G / 1024)) mV (R44). -/
def convert (code : BitVec 12) (gain : Nat) : Conversion :=
  let v := code.toNat * gain / 1024
  { code, value := min 65535 v, saturated := decide (65535 < v) }

/-- The window state of a first conversion, with no hysteresis (R45). -/
def initialWindow (low high v : Nat) : Window :=
  if v < low then .below else if high < v then .above else .inside

/-- A move of the window: the new state, the window record's kind, and jump. -/
structure WindowMove where
  to_ : Window
  kind : Kind
  jump : Bool
  deriving DecidableEq, Repr

/-- The window moved by a later conversion; none holds the state (R46). -/
def windowMove (w : Window) (low high hyst v : Nat) : Option WindowMove :=
  match w with
  | .unknown => none
  | .inside =>
    if high < v then some { to_ := .above, kind := .railLeaveHigh, jump := false }
    else if v < low then some { to_ := .below, kind := .railLeaveLow, jump := false }
    else none
  | .above =>
    if v < low then some { to_ := .below, kind := .railLeaveLow, jump := true }
    else if v ≤ high - hyst then some { to_ := .inside, kind := .railEnter, jump := false }
    else none
  | .below =>
    if high < v then some { to_ := .above, kind := .railLeaveHigh, jump := true }
    else if min 65535 (low + hyst) ≤ v then some { to_ := .inside, kind := .railEnter, jump := false }
    else none

/-! ## Blanking (R53–R55) -/

/-- Whether an active line's recorded mask names a channel (R53). -/
def Rmu.namedByLine (u : Rmu) (c : Fin 8) : Bool := u.lines.toList.any fun d => d.active && d.mask.getLsbD c.val

/-- A channel becomes blanked, its blank latch taking the window state (R54). -/
def Channel.blank (x : Channel) : Channel := if x.blanked then x else { x with blanked := true, blankLatch := x.window }

/-- A line becomes active with blank mask m (R53). -/
def Rmu.lineActive (u : Rmu) (d : Fin 8) (m : BitVec 8) : Rmu :=
  { u with
    lines := put u.lines d { active := true, mask := m }
    channels := mapEach (fun c x => if m.getLsbD c.val then x.blank else x) u.channels }

/-- A line ceases to be active, with a blank interval in ms: the holds of the channels it named (R53). -/
def Rmu.lineCeased (u : Rmu) (d : Fin 8) (interval : Nat) : Rmu :=
  let m := u.lines[d].mask
  { u with
    lines := put u.lines d { active := false, mask := m }
    channels := mapEach
      (fun c x =>
        if m.getLsbD c.val then { x with blankHold := max x.blankHold (Config.clocksPerMs * interval) } else x)
      u.channels }

/-- The window record released at a blank's end: its kind and jump by the latch and the present state (R55). -/
def releasedMove (latch now : Window) : Option (Kind × Bool) :=
  match latch, now with
  | .inside, .above => some (.railLeaveHigh, false)
  | .inside, .below => some (.railLeaveLow, false)
  | .below, .above => some (.railLeaveHigh, true)
  | .above, .below => some (.railLeaveLow, true)
  | .above, .inside => some (.railEnter, false)
  | .below, .inside => some (.railEnter, false)
  | _, _ => none

/-- The blank of a channel is over: no active line names it and its hold is 0 (R53). -/
def Rmu.blankOver (u : Rmu) (c : Fin 8) : Bool :=
  u.channels[c].blanked && !u.namedByLine c && u.channels[c].blankHold == 0

/-- A channel's blank ends if it is over, releasing the net change as one BLANKED record (R55). -/
def endBlank (c : Fin 8) (s : State) : State :=
  if s.rmu.blankOver c then
    let x := s.rmu.channels[c]
    let s1 := setChannel c { x with blanked := false } s
    match releasedMove x.blankLatch x.window with
    | some (k, jump) =>
      let mv := (x.last.map (·.value)).getD 0
      let sat := x.last.any (·.saturated)
      produce (railRecord c k x.window jump mv sat true s.now) s1
    | none => s1
  else s

/-- The notice that a line has become active. -/
def noticeActive (d : Fin 8) (m : BitVec 8) (s : State) : State := { s with rmu := s.rmu.lineActive d m }

/-- The notice that a line has ceased to be active; a blank may end at the notice itself (R53). Each notice is complete
before the next, so a blank ended here begins anew if a later line of the same clock names the channel (log 37). -/
def noticeCeased (d : Fin 8) (interval : Nat) (s : State) : State :=
  forEach (List.finRange 8) endBlank { s with rmu := s.rmu.lineCeased d interval }

/-! ## The converter (R42, R43) -/

/-- The channels in round-robin order after the position. -/
def Rmu.order (u : Rmu) : List (Fin 8) := (List.range 8).map fun i => ⟨(u.position.val + 1 + i) % 8, by omega⟩

/-- The converter starts a conversion of the first enabled channel after the position, or becomes idle (R42). -/
def Rmu.startNext (u : Rmu) : Rmu :=
  match u.order.find? fun c => u.channels[c].enabled with
  | some c => { u with converting := some { channel := c, elapsed := 0 }, position := c }
  | none => { u with converting := none }

/-- The converter after a RAIL CONFIG of channel c (R43). -/
def Rmu.afterConfig (u : Rmu) (c : Fin 8) : Rmu :=
  match u.converting with
  | none => u.startNext
  | some k => if k.channel = c then u.startNext else u

/-! ## Requests (3.7) -/

/-- RAIL CONFIG's settings stored over a channel, with its fresh start (R56); none where it answers RANGE. -/
def railConfigAt (p : List Byte) (x : Channel) : Option Channel := do
  let enabled ← yesNoAt p 1
  let protect ← yesNoAt p 12
  let gain := numAt p 2 2
  let low := numAt p 4 2
  let high := numAt p 6 2
  let decim := numAt p 13 2
  if gain = 0 ∨ high < low ∨ 256 < decim then none
  return { x with
           enabled, gain, low, high, hyst := numAt p 8 2, trip := numAt p 10 2, protect, decim,
           window := .unknown, samples := 0, blankLatch := if x.blanked then .unknown else x.blankLatch }

def serveRailConfig (q : Request) (s : State) : State :=
  match toFin 8 (byteAt q.payload 0) with
  | none => refuse q .range s
  | some c =>
    match railConfigAt q.payload s.rmu.channels[c] with
    | none => refuse q .range s
    | some x => done q [] { s with rmu := (s.rmu.setChannel c x).afterConfig c }

/-- The trip latches of the channels named by a mask cleared (R51). -/
def Rmu.clearTrips (u : Rmu) (mask : Nat) : Rmu :=
  { u with channels := mapEach (fun c x => if mask.testBit c.val then { x with tripped := false } else x) u.channels }

/-- The trip latches of all channels, 0 clear, 1 set, in channel order. -/
def Rmu.tripBytes (u : Rmu) : List Byte := u.channels.toList.flatMap fun x => numFlag x.tripped

def serveTripClear (q : Request) (s : State) : State :=
  let u := s.rmu.clearTrips (byteAt q.payload 0)
  done q u.tripBytes { s with rmu := u }

/-- What RAIL READ carries of a channel (R57); the blank latch and hold are sent whether or not it is blanked (log 10). -/
def Channel.bytes (x : Channel) : List Byte :=
  numYesNo x.enabled ++ num 2 x.gain ++ num 2 x.low ++ num 2 x.high ++ num 2 x.hyst ++ num 2 x.trip ++
    numYesNo x.protect ++ num 2 x.decim ++ num 1 x.window.num ++ numFlag x.tripped ++ numFlag x.blanked ++
    num 1 x.blankLatch.num ++ num 2 (toMs x.blankHold) ++ num 1 x.samples ++
    group 5 (x.last.map fun k => num 2 k.code.toNat ++ num 2 k.value ++ numFlag k.saturated)

/-- What RAIL READ carries (R57). -/
def Rmu.bytes (u : Rmu) : List Byte :=
  num 1 u.position.val ++ numYesNo u.converting.isNone ++ numYesNo u.tripHeld ++ u.channels.toList.flatMap Channel.bytes

/-! ## Commands -/

/-- BLANK_HOLD_EXPIRY (R55). -/
def execBlankHoldExpiry (c : Fin 8) (s : State) : Outcome := .next (endBlank c s)

/-- RAIL CONFIG (R56, R43). -/
def execRailConfig (s : State) : Outcome := .next (serve codeRailConfig serveRailConfig s)

/-- TRIP CLEAR (R51). -/
def execTripClear (s : State) : Outcome := .next (serve codeTripClear serveTripClear s)

/-- RAIL READ (R57). -/
def execRailRead (s : State) : Outcome := .next (serve codeRailRead (fun q t => done q t.rmu.bytes t) s)

end Sys2Proof.Machine
end

