-- ==== Sys2Proof/Machine/Line.lean ====
section
/-! DEFINITION. The Drive Control Unit (chapter 9): line moves, guards and verdicts, presses and deferrals, SAFE, modes. -/

namespace Sys2Proof.Machine

/-! ## Lines -/

/-- A line is active while it is ASSERTED or PRESSING (R172). -/
def LineState.active : LineState → Bool
  | .asserted => true
  | .pressing _ _ => true
  | _ => false

/-- Replace a line. -/
def Dcu.setLine (u : Dcu) (d : Fin 8) (l : Line) : Dcu := { u with lines := put u.lines d l }

def setLine (d : Fin 8) (l : Line) (s : State) : State := { s with dcu := s.dcu.setLine d l }

/-- The line with a new state; its last release is set when it leaves an active state for RELEASED (R172), and not when it
leaves one for DEFERRED (log 42). -/
def Line.moved (l : Line) (st : LineState) (now : Moment) : Line :=
  { l with state := st, lastRelease := if l.state.active && st == .released then some now else l.lastRelease }

/-- A line changes its state, and the Rail Monitor Unit gets the notice of a change of its activity (R172). -/
def moveLine (d : Fin 8) (st : LineState) (s : State) : State :=
  let l := s.dcu.lines[d]
  let s1 := setLine d (l.moved st { clock := s.clock, stamp := s.now }) s
  if !l.state.active && st.active then noticeActive d l.mask s1
  else if l.state.active && !st.active then noticeCeased d l.interval s1
  else s1

/-- A DRIVE record (R173). -/
def driveRecord (k : Kind) (d : Fin 8) (a : DriveAction) (r : DriveReason) (width : Nat) (at_ : Stamp) : Record :=
  newRecord srcDrive k at_ (driveKey d a r width)

/-- The guard record of a line request or a SAFE entry, with its origin (R6, R173). -/
def driveStart (d : Fin 8) (a : DriveAction) (width : Nat) (t : Option Ticket) (at_ : Stamp) : Record :=
  { driveRecord .driveStart d a .none width at_ with origin := some (originOf t) }

/-- What a DONE response of a line request carries: the width used, for a press (R176). -/
def LineRequest.donePayload (r : LineRequest) : List Byte := if r.action = .press then num 2 r.width else []

/-- A line request refused: DRIVE-REFUSED with the reason, and the status to the station (R173, R176, R177). -/
def refuseLine (d : Fin 8) (r : LineRequest) (why : DriveReason) (s : State) : State :=
  respondTo r.ticket why.status [] (produce (driveRecord .driveRefused d r.action why r.width s.now) s)

/-- A line asserted by its request: step 5 of R177. -/
def assertLine (d : Fin 8) (r : LineRequest) (s : State) : State :=
  let st :=
    if r.action = .press then LineState.pressing r.width (s.clock + Config.clocksPerMs * r.width) else .asserted
  respondTo r.ticket .done r.donePayload
    (moveLine d st (produce (driveRecord .driveAssert d r.action .none r.width s.now) s))

/-! ## Interlock pairs (R175) -/

/-- The pair a line belongs to, with its partner. -/
def Dcu.partner (u : Dcu) (d : Fin 8) : Option (Fin 8 × Nat) :=
  u.pairs.toList.findSome? fun p =>
    p.bind fun p => if p.a = d then some (p.b, p.gap) else if p.b = d then some (p.a, p.gap) else none

/-- Whether a line's partner is active. -/
def Dcu.partnerActive (u : Dcu) (d : Fin 8) : Bool := (u.partner d).any fun p => u.lines[p.1].state.active

/-- The moment to which a line's partner's gap defers it, if it has not passed (R177). -/
def Dcu.gapEnd (u : Dcu) (d : Fin 8) (now : Nat) : Option Nat :=
  (u.partner d).bind fun p =>
    u.lines[p.1].lastRelease.bind fun m =>
      if now < m.clock + Config.clocksPerMs * p.2 then some (m.clock + Config.clocksPerMs * p.2) else none

/-! ## Verdicts and expiries (R177, R178) -/

/-- Steps 4 and 5 of R177. -/
def deferOrAssert (d : Fin 8) (r : LineRequest) (s : State) : State :=
  match s.dcu.gapEnd d s.clock with
  | some e => moveLine d (.deferred r e) s
  | none => assertLine d r s

/-- The verdict on a line's request in guard (R177); a withdrawn request is answered ABORTED (R180). -/
def lineVerdict (refused : Bool) (d : Fin 8) (s : State) : State :=
  match s.dcu.lines[d].guarded with
  | none => s
  | some g =>
    let s1 := setLine d { s.dcu.lines[d] with guarded := none } s
    if g.withdrawn then respondTo g.request.ticket .aborted [] s1
    else if refused then refuseLine d g.request .guarded s1
    else
      match s.dcu.mode with
      | .safe => refuseLine d g.request .safe s1
      | .hold => refuseLine d g.request .state s1
      | .normal =>
        if s1.dcu.partnerActive d then refuseLine d g.request .interlock s1 else deferOrAssert d g.request s1

/-- A deferral judged at its expiry (R178). -/
def deferralExpiry (d : Fin 8) (s : State) : State :=
  match s.dcu.lines[d].state with
  | .deferred r e =>
    if e ≤ s.clock then
      if s.dcu.partnerActive d then moveLine d .released (refuseLine d r .interlock s) else deferOrAssert d r s
    else s
  | _ => s

/-- A press ended at its end moment (R179). -/
def pressEnd (d : Fin 8) (s : State) : State :=
  match s.dcu.lines[d].state with
  | .pressing w e =>
    if e ≤ s.clock then moveLine d .released (produce (driveRecord .drivePressEnd d .press .none w s.now) s) else s
  | _ => s

/-! ## SAFE (R182–R184) -/

/-- A line that a SAFE entry changes. -/
def safeChange (d : Fin 8) (st : LineState) (s : State) : State :=
  moveLine d st (produce (driveRecord .driveSafe d .safe .none 0 s.now) s)

/-- One line at SAFE entry, by its state and safe level (R182). -/
def safeLine (d : Fin 8) (s : State) : State :=
  match s.dcu.lines[d].state, s.dcu.lines[d].safeAsserted with
  | .released, false => s
  | .released, true => safeChange d .asserted s
  | .asserted, false => safeChange d .released s
  | .asserted, true => s
  | .pressing _ _, false => safeChange d .released s
  | .pressing _ _, true => safeChange d .asserted s
  | .deferred r _, false => moveLine d .released (refuseLine d r .safe s)
  | .deferred r _, true => safeChange d .asserted (refuseLine d r .safe s)

/-- SAFE entry, from NORMAL or HOLD; in SAFE nothing changes (R182, R183). -/
def enterSafe (s : State) : State :=
  if s.dcu.mode = .safe then s
  else
    let s1 := forEach (List.finRange 8) safeLine s
    setAlert .safe { s1 with dcu := { s1.dcu with mode := .safe } }

/-- A guarded SAFE request taken from the station or the sequencer (R184). -/
def takeSafeRequest (t : Option Ticket) (s : State) : State :=
  if s.dcu.mode = .safe then respondTo t .done [] s
  else if t = none ∧ none ∈ s.dcu.safeGuard then s
  else
    produce (driveStart 0 .safe 0 t s.now) { s with dcu := { s.dcu with safeGuard := s.dcu.safeGuard ++ [t] } }

/-- The verdict on the oldest SAFE request in guard (R184). -/
def safeVerdict (refused : Bool) (s : State) : State :=
  match s.dcu.safeGuard with
  | [] => s
  | t :: rest =>
    let s1 := { s with dcu := { s.dcu with safeGuard := rest } }
    if refused then
      respondTo t .guarded [] (produce (driveRecord .driveRefused 0 .safe .guarded 0 s.now) s1)
    else respondTo t .done [] (enterSafe s1)

/-- The verdict on a DRIVE-START, told apart by its key (R86, R177, R184). -/
def driveVerdict (refused : Bool) (key : Word) (s : State) : State :=
  if keyIsSafe key then safeVerdict refused s else lineVerdict refused (keyLine key) s

/-! ## Line requests (R176, R179–R181) -/

/-- The guard step (R176). -/
def guardStep (d : Fin 8) (r : LineRequest) (s : State) : State :=
  produce (driveStart d r.action r.width r.ticket s.now)
    (setLine d { s.dcu.lines[d] with guarded := some { request := r, withdrawn := false } } s)

/-- A retrigger of a press: no guard, no record (R179). -/
def retrigger (d : Fin 8) (r : LineRequest) (s : State) : State :=
  respondTo r.ticket .done r.donePayload
    (setLine d
      { s.dcu.lines[d] with state := .pressing r.width (s.clock + Config.clocksPerMs * r.width) } s)

/-- An assertion or a press taken in NORMAL by a line with no request in guard: the table of R176. -/
def takeInNormal (d : Fin 8) (r : LineRequest) (s : State) : State :=
  match s.dcu.lines[d].state, r.action with
  | .released, _ => guardStep d r s
  | .asserted, .press => refuseLine d r .state s
  | .asserted, _ => respondTo r.ticket .done [] s
  | .pressing _ _, .press => retrigger d r s
  | .pressing _ _, _ => refuseLine d r .state s
  | .deferred _ _, _ => refuseLine d r .busy s

/-- An assertion or a press taken by the unit (R176). -/
def takeLineRequest (d : Fin 8) (r : LineRequest) (s : State) : State :=
  match s.dcu.mode with
  | .hold => refuseLine d r .state s
  | .safe => refuseLine d r .safe s
  | .normal => if s.dcu.lines[d].guarded.isSome then refuseLine d r .busy s else takeInNormal d r s

/-- A width of 0 is a press of 1 ms (R176). -/
def clampWidth (w : Nat) : Nat := if w = 0 then 1 else w

/-- A PRESS-LINE of the sequencer (R181). -/
def sequencerPress (d : Fin 8) (w : Nat) (s : State) : State :=
  takeLineRequest d { ticket := none, action := .press, width := clampWidth w } s

/-- An active line released by a LINE SET release (R180). -/
def releaseActive (d : Fin 8) (s : State) : State :=
  moveLine d .released (produce (driveRecord .driveRelease d .release .none 0 s.now) s)

/-- A LINE SET release in NORMAL, by the line's state (R180). -/
def releaseLine (d : Fin 8) (s : State) : State :=
  match s.dcu.lines[d].state with
  | .asserted => releaseActive d s
  | .pressing _ _ => releaseActive d s
  | .deferred r _ => respondTo r.ticket .aborted [] (moveLine d .released s)
  | .released =>
    setLine d { s.dcu.lines[d] with guarded := s.dcu.lines[d].guarded.map fun g => { g with withdrawn := true } } s

def serveLineSetAssert (q : Request) (s : State) : State :=
  match toFin 8 (byteAt q.payload 0) with
  | some d =>
    if byteAt q.payload 1 = 0 then takeLineRequest d { ticket := some q.ticket, action := .assert, width := 0 } s
    else refuse q .range s
  | none => refuse q .range s

def serveLineSetRelease (q : Request) (s : State) : State :=
  match toFin 8 (byteAt q.payload 0) with
  | some d =>
    if byteAt q.payload 1 = 1 then
      match s.dcu.mode with
      | .hold => refuseLine d { ticket := some q.ticket, action := .release, width := 0 } .state s
      | .safe => refuseLine d { ticket := some q.ticket, action := .release, width := 0 } .safe s
      | .normal => done q [] (releaseLine d s)
    else refuse q .range s
  | none => refuse q .range s

def serveLinePress (q : Request) (s : State) : State :=
  match toFin 8 (byteAt q.payload 0) with
  | some d =>
    takeLineRequest d
      { ticket := some q.ticket, action := .press, width := clampWidth (numAt q.payload 1 2) } s
  | none => refuse q .range s

/-! ## Configuration (R174, R175) -/

/-- A safe level: ASSERTED 0, RELEASED 1 (log 8). -/
def safeLevelAt (p : List Byte) (i : Nat) : Option Bool := yesNoAt p i

def serveLineConfig (q : Request) (s : State) : State :=
  match toFin 8 (byteAt q.payload 0), safeLevelAt q.payload 1 with
  | some d, some level =>
    let interval := numAt q.payload 3 2
    if 1000 < interval then refuse q .range s
    else if level && (s.dcu.partner d).any fun p => s.dcu.lines[p.1].safeAsserted then refuse q .range s
    else if s.dcu.mode = .safe then refuse q .state s
    else
      done q []
        (setLine d
          { s.dcu.lines[d] with safeAsserted := level, mask := BitVec.ofNat 8 (byteAt q.payload 2), interval } s)
  | _, _ => refuse q .range s

/-- The pair PAIR CONFIG names, with the fields read under lines (11.2); none where a field is out of range. -/
def pairAt (p : List Byte) : Option (Fin 4 × Pair) := do
  let n ← toFin 4 (byteAt p 0)
  let a ← toFin 8 (byteAt p 2)
  let b ← toFin 8 (byteAt p 3)
  return (n, { a, b, gap := byteAt p 4 })

/-- Whether a line belongs to a pair other than pair n (R175). -/
def Dcu.pairedElsewhere (u : Dcu) (n : Fin 4) (d : Fin 8) : Bool :=
  (List.finRange 4).any fun m => m != n && (u.pairs[m].any fun p => p.a == d || p.b == d)

/-- The checks of R175 on a pair of lines. -/
def Dcu.pairAllowed (u : Dcu) (n : Fin 4) (p : Pair) : Bool :=
  p.a != p.b && !u.pairedElsewhere n p.a && !u.pairedElsewhere n p.b &&
    !(u.lines[p.a].safeAsserted && u.lines[p.b].safeAsserted) &&
    !(u.lines[p.a].state.active && u.lines[p.b].state.active)

def setPair (n : Fin 4) (p : Option Pair) (s : State) : State := { s with dcu := { s.dcu with pairs := put s.dcu.pairs n p } }

def servePairConfig (q : Request) (s : State) : State :=
  if byteAt q.payload 1 = 0 then
    match pairAt q.payload with
    | some (n, p) => if s.dcu.pairAllowed n p then done q [] (setPair n (some p) s) else refuse q .range s
    | none => refuse q .range s
  else refuse q .range s

def servePairConfigClear (q : Request) (s : State) : State :=
  if byteAt q.payload 1 = 1 then
    match toFin 4 (byteAt q.payload 0) with
    | some n => done q [] (setPair n none s)
    | none => refuse q .range s
  else refuse q .range s

/-! ## Modes (R185) -/

/-- MODE SET NORMAL or HOLD: refused from SAFE while a protected trip is held (R185). -/
def setMode (m : DriveMode) (q : Request) (s : State) : State :=
  if s.dcu.mode = .safe ∧ s.rmu.tripHeld = true then refuse q .state s
  else done q [] { s with dcu := { s.dcu with mode := m } }

def serveModeSetNormal (q : Request) (s : State) : State :=
  if byteAt q.payload 0 = 0 then setMode .normal q s else refuse q .range s

def serveModeSetHold (q : Request) (s : State) : State :=
  if byteAt q.payload 0 = 1 then setMode .hold q s else refuse q .range s

def serveModeSetSafe (q : Request) (s : State) : State :=
  if byteAt q.payload 0 = 2 then takeSafeRequest (some q.ticket) s else refuse q .range s

/-! ## Status (R186) -/

/-- The milliseconds left to a moment. -/
def msLeft (s : State) (moment : Nat) : Nat := toMs (moment - s.clock)

/-- A pair in LINE STATUS. -/
def pairBytes (p : Option Pair) : List Byte := group 3 (p.map fun p => num 1 p.a.val ++ num 1 p.b.val ++ num 1 p.gap)

/-- What LINE STATUS carries of a line (R186); an action byte has the number of the key (log 36). -/
def lineBytes (s : State) (l : Line) : List Byte :=
  num 1 l.state.num ++ numYesNo l.safeAsserted ++ num 1 l.mask.toNat ++ num 2 l.interval ++
    group 6 (l.lastRelease.map fun m => numStamp m.stamp) ++
    group 4 (match l.state with
      | .pressing w e => some (num 2 w ++ num 2 (msLeft s e))
      | _ => none) ++
    group 3 (match l.state with
      | .deferred r e => some (num 1 (originOf r.ticket).num ++ num 1 r.action.num ++ num 1 (msLeft s e))
      | _ => none) ++
    group 2 (l.guarded.map fun g => num 1 (originOf g.request.ticket).num ++ num 1 g.request.action.num)

/-- What LINE STATUS carries (R186); of the protected trip held 0 is present, by chapter 9's list (log 8). -/
def lineStatusBytes (s : State) : List Byte :=
  num 1 s.dcu.mode.num ++ numYesNo s.rmu.tripHeld ++ num 1 s.dcu.safeGuard.length ++
    s.dcu.pairs.toList.flatMap pairBytes ++ s.dcu.lines.toList.flatMap (lineBytes s)

/-! ## Commands -/

/-- PRESS_END (R179). -/
def execPressEnd (d : Fin 8) (s : State) : Outcome := .next (pressEnd d s)

/-- DEFERRAL_EXPIRY (R178). -/
def execDeferralExpiry (d : Fin 8) (s : State) : Outcome := .next (deferralExpiry d s)

/-- LINE SET with level ASSERT (R176). -/
def execLineSetAssert (s : State) : Outcome := .next (serveWhen codeLineSet (modeFits 1 0 1) serveLineSetAssert s)

/-- LINE SET with level RELEASE (R180). -/
def execLineSetRelease (s : State) : Outcome := .next (serveWhen codeLineSet (modeFits 1 1 1) serveLineSetRelease s)

/-- LINE PRESS (R176, R179). -/
def execLinePress (s : State) : Outcome := .next (serve codeLinePress serveLinePress s)

/-- LINE CONFIG (R174). -/
def execLineConfig (s : State) : Outcome := .next (serve codeLineConfig serveLineConfig s)

/-- PAIR CONFIG with two lines (R175). -/
def execPairConfig (s : State) : Outcome := .next (serveWhen codePairConfig (modeFits 1 0 1) servePairConfig s)

/-- PAIR CONFIG with CLEAR (R175). -/
def execPairConfigClear (s : State) : Outcome :=
  .next (serveWhen codePairConfig (modeFits 1 1 1) servePairConfigClear s)

/-- MODE SET NORMAL (R185). -/
def execModeSetNormal (s : State) : Outcome := .next (serveWhen codeModeSet (modeFits 0 0 2) serveModeSetNormal s)

/-- MODE SET HOLD (R185). -/
def execModeSetHold (s : State) : Outcome := .next (serveWhen codeModeSet (modeFits 0 1 2) serveModeSetHold s)

/-- MODE SET SAFE (R184). -/
def execModeSetSafe (s : State) : Outcome := .next (serveWhen codeModeSet (modeFits 0 2 2) serveModeSetSafe s)

/-- LINE STATUS (R186). -/
def execLineStatus (s : State) : Outcome := .next (serve codeLineStatus (fun q t => done q (lineStatusBytes t) t) s)

end Sys2Proof.Machine
end

