-- ==== Sys2Proof/Machine/Conversion.lean ====
section
/-! DEFINITION. The end of a rail conversion, whole (R44–R50, R52). -/

namespace Sys2Proof.Machine

/-- The result of the window step of a conversion: the channel after it, the record if one is produced, and the jump. -/
structure WindowStep where
  channel : Channel
  record : Option Kind
  jump : Bool
  deriving DecidableEq, Repr

/-- The window set (R45) or moved (R46) by a conversion; the window record of a blanked channel is held back (R54). -/
def Channel.windowStep (x : Channel) (v : Nat) : WindowStep :=
  if x.window = .unknown then
    let w := initialWindow x.low x.high v
    { channel := { x with window := w, blankLatch := if x.blanked then w else x.blankLatch }
      record := some .railInitial
      jump := false }
  else
    match windowMove x.window x.low x.high x.hyst v with
    | some m =>
      { channel := { x with window := m.to_ }
        record := if x.blanked then none else some m.kind
        jump := m.jump }
    | none => { channel := x, record := none, jump := false }

/-- Step 2: the window, and its record. -/
def windowStage (c : Fin 8) (k : Conversion) (s : State) : State :=
  let w := s.rmu.channels[c].windowStep k.value
  let s1 := setChannel c { w.channel with last := some k } s
  match w.record with
  | some kind => produce (railRecord c kind w.channel.window w.jump k.value k.saturated false s.now) s1
  | none => s1

/-- Whether a conversion trips the channel (R49). -/
def Channel.trips (x : Channel) (v : Nat) : Bool := decide (0 < x.trip) && decide (x.trip ≤ v) && !x.tripped

/-- Step 3: the trip check, with the jump of the window step (R49). -/
def tripStage (c : Fin 8) (k : Conversion) (jump : Bool) (s : State) : State :=
  let x := s.rmu.channels[c]
  if x.trips k.value then
    setAlert .railTrip
      (produce (railRecord c .railTrip x.window jump k.value k.saturated false s.now)
        (setChannel c { x with tripped := true } s))
  else s

/-- Step 4: the sample count (R48). -/
def sampleStage (c : Fin 8) (k : Conversion) (s : State) : State :=
  let x := s.rmu.channels[c]
  if x.decim = 0 then s
  else if x.decim ≤ x.samples + 1 then
    produce (railRecord c .railSample x.window false k.value k.saturated false s.now)
      (setChannel c { x with samples := 0 } s)
  else setChannel c { x with samples := x.samples + 1 } s

/-- The protection request of a protected channel's trip: SAFE entry at the trip's core clock (R50), taken once the
conversion's own steps are complete, so that they stay one after the other in R52's order (log 28). -/
def protectStage (trip : Bool) (s : State) : State := if trip then enterSafe s else s

/-- The handling of a conversion's result, in the order of R52, and then its protection request. -/
def conversionResult (c : Fin 8) (code : BitVec 12) (s : State) : State :=
  let x := s.rmu.channels[c]
  let k := convert code x.gain
  let jump := (x.windowStep k.value).jump
  protectStage (x.protect && x.trips k.value) (sampleStage c k (tripStage c k jump (windowStage c k s)))

/-- The channel whose conversion has taken its 250 core clocks (R42). -/
def Rmu.conversionDue (u : Rmu) : Option (Fin 8) :=
  match u.converting with
  | some k => if Config.conversionClocks ≤ k.elapsed then some k.channel else none
  | none => none

/-- The end of a conversion with the code the converter gives, and the start of the next (R42, R52). -/
def conversionEnd (code : BitVec 12) (s : State) : State :=
  match s.rmu.conversionDue with
  | some c =>
    let s1 := conversionResult c code { s with pins := { s.pins with rails := put s.pins.rails c code } }
    { s1 with rmu := s1.rmu.startNext }
  | none => s

/-- CONVERSION_END (R42, R52). -/
def execConversionEnd (code : BitVec 12) (s : State) : Outcome := .next (conversionEnd code s)

end Sys2Proof.Machine
end

