-- ==== Sys2Proof/Machine/Scan.lean ====
section
/-! DEFINITION. The Scan Engine (chapter 8): paths, clocking, the arbiter, verdicts, faults, aborts, slots, requests. -/

namespace Sys2Proof.Machine

/-! ## The paths the engine drives (R153, R154) -/

/-- Half a TCK period in core clocks, 2^(k+1) (R150). -/
def Sce.half (u : Sce) : Nat := 2 ^ (u.rate.val + 1)

/-- The entry path's TMS levels from a tracked state into the shift state of a scan's register (R153). -/
def entryPath (k : ScanKind) (from_ : TapState) : List Bool :=
  match k, from_ with
  | .irScan, .idle => [true, true, false, false]
  | .irScan, .reset => [false, true, true, false, false]
  | .irScan, .pauseDr => [true, true, true, true, false, false]
  | .irScan, .pauseIr => [true, false]
  | .irScan, .unknown => []
  | _, .idle => [true, false, false]
  | _, .reset => [false, true, false, false]
  | _, .pauseDr => [true, false]
  | _, .pauseIr => [true, true, true, false, false]
  | _, .unknown => []

/-- The path of an IDLE-CLOCKS scan into IDLE (R154). -/
def idlePath (from_ : TapState) : List Bool :=
  match from_ with
  | .reset => [false]
  | .pauseDr => [true, true, false]
  | .pauseIr => [true, true, false]
  | _ => []

/-- The shift clocks: TMS high on the last (R153). -/
def shiftClocks : List Bool → List TckClock
  | [] => []
  | [b] => [{ tms := true, part := .shift, out := some b }]
  | b :: bs => { tms := false, part := .shift, out := some b } :: shiftClocks bs

/-- Clocks that shift no bit. -/
def plainClocks (part : ClockPart) (levels : List Bool) : List TckClock :=
  levels.map fun l => { tms := l, part, out := none }

/-- All the clocks of a scan from a tracked state (R153, R154). -/
def scanPlan (c : Scan) (from_ : TapState) : List TckClock :=
  match c.kind with
  | .irScan | .drScan =>
    plainClocks .entry (entryPath c.kind from_) ++ shiftClocks c.out ++
      plainClocks .exit (if c.pause then [false] else [true, false])
  | .tapReset => plainClocks .resetHigh (List.replicate 5 true) ++ plainClocks .resetLow [false]
  | .idleClocks => plainClocks .idlePath (idlePath from_) ++ plainClocks .idle (List.replicate c.length false)

/-- The pause state of a scan's register. -/
def Scan.pauseState (c : Scan) : TapState := if c.kind = .irScan then .pauseIr else .pauseDr

/-- The end state of a scan (8.5). -/
def Scan.endState (c : Scan) : TapState := if c.pause then c.pauseState else .idle

/-! ## Records and results -/

/-- A SCAN-DONE or SCAN-FAIL record, with the first 16 bytes of the TDO (R3–R5). -/
def scanRecord (k : ScanKind → Kind) (c : Scan) (r : ScanReason) (tdo : List Bool) (at_ : Stamp) : Record :=
  { newRecord srcScan (k c.kind) at_ (scanKey r c) with
    body := (packBits tdo).take 16
    flags := { truncated := decide (128 < tdo.length) } }

/-- The state a slot takes at the end of its scan, by the outcome (8.10). -/
def slotEnd (st : Status) : SlotState :=
  match st with
  | .done => .done
  | .aborted => .aborted
  | _ => .failed

/-- Slot n at the end of its scan or flush, with its result (R168, R169). -/
def Sce.slotResult (u : Sce) (n : Fin 4) (st : Status) (tdo : List Bool) : Sce :=
  { u with slots := put u.slots n { u.slots[n] with state := slotEnd st, result := some { outcome := st, tdo } } }

/-- The request of a scan answered, or its slot completed (R160 and the rules that follow it). -/
def concludeScan (o : ScanOrigin) (st : Status) (tdo : List Bool) (s : State) : State :=
  match o with
  | .station t => respond t st (resultBytes tdo) s
  | .slot n => { s with sce := s.sce.slotResult n st tdo }

/-- The engine with no scan in hand: TCK rests low (R150). -/
def Sce.freed (u : Sce) : Sce := { u with phase := .free, running := none, tck := false }

/-! ## The arbiter and the start of a scan (R157–R159) -/

/-- The scan power lane is set and away from its required level. -/
def powerAway (s : State) : Bool :=
  match s.sce.powerLane with
  | some i => s.laneLevel i != s.sce.powerLevel
  | none => false

/-- The start checks 1 and 2 of R158: the status and reason with which the scan fails. -/
def startFault (c : Scan) (s : State) : Option (Status × ScanReason) :=
  if powerAway s then some (.noPower, .noPower)
  else if s.sce.tracked = .unknown ∧ c.kind ≠ .tapReset then some (.state, .aborted)
  else none

/-- A scan that ends without a clock driven: SCAN-FAIL with an empty body, the tracked state unchanged (R158, R159). -/
def failUndriven (o : ScanOrigin) (c : Scan) (f : Status × ScanReason) (s : State) : State :=
  concludeScan o f.1 []
    (produce (scanRecord (fun _ => .scanFail) c f.2 [] s.now) { s with sce := s.sce.freed })

/-- The guard record of a scan (R159). -/
def scanStart (o : ScanOrigin) (c : Scan) (at_ : Stamp) : Record :=
  { newRecord srcScan .scanStart at_ (scanKey .none c) with
    origin := some (match o with | .station _ => .station | .slot _ => .sequencer) }

/-- The chosen scan enters GUARD with bits shifted 0 (R157, R158). -/
def enterGuard (o : ScanOrigin) (c : Scan) (s : State) : State :=
  produce (scanStart o c s.now)
    { s with
      sce :=
        { s.sce with
          phase := .guard
          running :=
            some { scan := c, origin := o, tdo := [], abortTaken := false, stoppedShort := false, plan := [] } } }

/-- The QUEUED slot with the lowest number, with its scan. -/
def Sce.queuedSlot (u : Sce) : Option (Fin 4 × Scan) :=
  (List.finRange 4).findSome? fun n =>
    if u.slots[n].state = .queued then u.slots[n].scan.map fun c => (n, c) else none

/-- The next scan by the order of R157, with the engine's state after its taking. -/
def Sce.next (u : Sce) : Option (ScanOrigin × Scan × Sce) :=
  match u.queuedSlot with
  | some (n, c) => some (.slot n, c, { u with slots := put u.slots n { u.slots[n] with state := .running } })
  | none =>
    match u.queue with
    | q :: rest => some (.station q.ticket, q.scan, { u with queue := rest })
    | [] => none

/-- The engine, if FREE, takes what waits, scan after scan while they fail their start checks (R157, R158). Each turn
takes one waiting scan, so the number of turns given bounds nothing. -/
def arbitrateFor : Nat → State → State
  | 0, s => s
  | n + 1, s =>
    if s.sce.phase = .free then
      match s.sce.next with
      | none => s
      | some (o, c, u) =>
        let s1 := { s with sce := u }
        match startFault c s1 with
        | some f => arbitrateFor n (failUndriven o c f s1)
        | none => enterGuard o c s1
    else s

/-- The arbiter: at most 4 slots and the queue can wait. -/
def arbitrate (s : State) : State := arbitrateFor (s.sce.queue.length + 5) s

/-- TMS and TDI set for the first clock of a plan while TCK is low (R150); on a clock that shifts no bit the TDI level is
a free value (log 11). `followed` says whether the engine need not wait for RCLK before the rising edge (R151). -/
def setUpClock (followed : Bool) (s : State) : State :=
  match s.sce.running.bind fun r => r.plan.head? with
  | some k =>
    let tdi := k.out.getD (Config.freeTdi s.free)
    { s with
      free := if k.out.isSome then s.free else s.free + 1
      sce := { s.sce with tck := false, tms := k.tms, tdi := tdi, edgeClocks := 0, followed := followed } }
  | none => s

/-- SHIFT begins with the first clock of the scan, which waits for no RCLK: the edges of the scan before were followed or
ended by a fault (R159, R160; log 17). -/
def beginShift (r : Running) (s : State) : State :=
  setUpClock true
    { s with sce := { s.sce with phase := .shift, running := some { r with plan := scanPlan r.scan s.sce.tracked } } }

/-- The verdict on a SCAN-START (R159; an IMMEDIATE abort taken during GUARD is decided here, R166). -/
def scanVerdict (refused : Bool) (s : State) : State :=
  match s.sce.phase, s.sce.running with
  | .guard, some r =>
    if r.abortTaken then arbitrate (failUndriven r.origin r.scan (.aborted, .aborted) s)
    else if refused then arbitrate (failUndriven r.origin r.scan (.guarded, .guarded) s)
    else
      match startFault r.scan s with
      | some f => arbitrate (failUndriven r.origin r.scan f s)
      | none => beginShift r s
  | _, _ => s

/-! ## Clocking (R150, R151) -/

/-- The engine drives clocks. -/
def Sce.drives (u : Sce) : Bool := u.phase == .shift || u.phase == .aborting

/-- One TDO bit kept, if the clock in progress shifts one. -/
def Running.sample (r : Running) (tdo : Bool) : Running :=
  match r.plan with
  | k :: _ => if k.out.isSome then { r with tdo := r.tdo ++ [tdo] } else r
  | [] => r

/-- RCLK shows the level of the last TCK edge: the edge is followed, and after a rising edge TDO is sampled (R151). -/
def Sce.follow (u : Sce) (rclk tdo : Bool) : Sce :=
  if !u.followed && rclk == u.tck then
    { u with followed := true, running := if u.tck then u.running.map (·.sample tdo) else u.running }
  else u

/-- Half a period has passed since the edge and RCLK has followed it. -/
def Sce.edgeDue (u : Sce) : Bool :=
  u.drives && u.followed && decide (u.half ≤ u.edgeClocks) && (u.running.any fun r => !r.plan.isEmpty)

/-- The rising edge of the clock in progress, when due; without RCLK pacing TDO is sampled at it (R150). -/
def Sce.rise (u : Sce) (tdo : Bool) : Sce :=
  if u.edgeDue && !u.tck then
    { u with
      tck := true, edgeClocks := 0, followed := u.timeout == 0,
      running := if u.timeout = 0 then u.running.map (·.sample tdo) else u.running }
  else u

/-- RCLK and TDO sampled by a driving engine: it may follow, and a rising edge that then is due is driven at the same
clock, the later of the half period and the follow (R151). -/
def Sce.sampled (u : Sce) (rclk tdo : Bool) : Sce := if u.drives then (u.follow rclk tdo).rise tdo else u

/-- One core clock at the engine. -/
def Sce.tickClock (u : Sce) (rclk tdo : Bool) : Sce :=
  if u.drives then { u with edgeClocks := u.edgeClocks + 1 }.sampled rclk tdo else u

/-- What an IMMEDIATE abort leaves of the clocks still to drive once the clock in progress has completed: the phase, the
clocks, and whether the scan is stopped short of its end (R165, R166). -/
def abortPlan (k : TckClock) (rest : List TckClock) : ScanPhase × List TckClock × Bool :=
  let further (l : List TckClock) : List TckClock :=
    [{ tms := true, part := .shift, out := some ((l.findSome? (·.out)).getD false) },
      { tms := false, part := .exit, out := none }]
  match k.part with
  | .entry => (.aborting, rest.takeWhile (·.part == .entry) ++ further rest, false)
  | .shift => if k.tms then (.shift, rest, false) else (.aborting, further rest, false)
  | .exit => (.shift, rest, false)
  | .resetHigh => (.shift, rest.takeWhile (·.part == .resetHigh), true)
  | .resetLow => (.shift, rest, false)
  | .idlePath => (.shift, rest.takeWhile (·.part == .idlePath), true)
  | .idle => (.shift, [], !rest.isEmpty)

/-- The clocks left after the clock in progress, with an abort taken for the scan applied. -/
def Sce.afterClock (u : Sce) (r : Running) (k : TckClock) (rest : List TckClock) : Sce :=
  if r.abortTaken && u.phase == .shift && !r.stoppedShort then
    let p := abortPlan k rest
    { u with phase := p.1, running := some { r with plan := p.2.1, stoppedShort := p.2.2 } }
  else { u with running := some { r with plan := rest } }

/-- The falling edge that completes the clock in progress; the next clock is set up at the same moment (R150). -/
def completeClock (s : State) : State :=
  match s.sce.running with
  | some r =>
    match r.plan with
    | k :: rest =>
      setUpClock (s.sce.timeout == 0)
        { s with
          sce := { s.sce with tck := false, edgeClocks := 0, followed := s.sce.timeout == 0 }.afterClock r k rest }
    | [] => s
  | none => s

/-! ## Ends of a scan -/

/-- The queue and the QUEUED slots flushed (R156, R161, R164): each request answered ABORTED, each slot ABORTED with a
result of outcome ABORTED and no bits, as R168's empty result is taken (log 35). -/
def flush (s : State) : State :=
  let s1 := forEach s.sce.queue (fun q t => respond q.ticket .aborted (resultBytes []) t) s
  { s1 with
    sce :=
      { s1.sce with
        queue := []
        slots := mapAll
          (fun x => if x.state = .queued then { x with state := .aborted, result := some { outcome := .aborted, tdo := [] } }
            else x) s1.sce.slots } }

/-- How many requests and slots a flush finds. -/
def Sce.waiting (u : Sce) : Nat := u.queue.length + ((List.finRange 4).filter fun n => u.slots[n].state == .queued).length

/-- A scan that has driven clocks ends: the tracked state, its record, its answer, the engine FREE (R160, R165). -/
def endDriven (r : Running) (tracked : TapState) (k : Kind) (reason : ScanReason) (st : Status) (s : State) : State :=
  concludeScan r.origin st r.tdo
    (produce (scanRecord (fun _ => k) r.scan reason r.tdo s.now)
      { s with sce := { s.sce.freed with tracked := tracked, tdi := true } })

/-- A scan ended by a fault: TCK low with TMS and TDI held, UNKNOWN, the partial result, the flush, SCAN-FAULT, FREE
(R161, R162). -/
def scanFault (st : Status) (reason : ScanReason) (s : State) : State :=
  match s.sce.running with
  | some r =>
    let s1 := { s with sce := { s.sce.freed with tracked := .unknown } }
    setAlert .scanFault
      (flush (concludeScan r.origin st r.tdo (produce (scanRecord (fun _ => .scanFail) r.scan reason r.tdo s.now) s1)))
  | none => s

/-- An accepted change of a lane reaches the Scan Engine (R24): the power lane leaving its required level ends a scan
that shifts (R162), and otherwise makes the tracked state UNKNOWN (R163). -/
def scanPowerEdge (lane : Fin 16) (level : Bool) (s : State) : State :=
  if s.sce.powerLane = some lane ∧ level ≠ s.sce.powerLevel then
    if s.sce.drives then scanFault .noPower .noPower s
    else { s with sce := { s.sce with tracked := .unknown } }
  else s

/-- Whether the last clock of a scan's path has been driven, and RCLK has followed its falling edge (R151, R160;
log 17). -/
def Sce.completeDue (u : Sce) : Bool :=
  u.phase == .shift && u.followed && (u.running.any fun r => r.plan.isEmpty && !r.stoppedShort)

/-- Whether an aborted scan has reached its stopping point, RCLK having followed the last edge (R151, R165, R166;
log 17). -/
def Sce.abortDue (u : Sce) : Bool :=
  u.drives && u.followed && (u.running.any fun r => r.plan.isEmpty && (u.phase == .aborting || r.stoppedShort))

/-- Whether the return-clock timeout runs out after an edge, the last falling edge of a scan included (R151). -/
def Sce.timeoutDue (u : Sce) : Bool :=
  u.drives && decide (0 < u.timeout) && !u.followed && decide (Config.clocksPerUs * u.timeout ≤ u.edgeClocks)

/-- Whether the falling edge of the clock in progress is due. -/
def Sce.fallDue (u : Sce) : Bool := u.edgeDue && u.tck

def scanComplete (s : State) : State :=
  if s.sce.completeDue then
    match s.sce.running with
    | some r => arbitrate (endDriven r r.scan.endState .scanDone .none .done s)
    | none => s
  else s

/-- Where an aborted scan leaves the port (R165, R166). -/
def Scan.abortState (c : Scan) : TapState :=
  match c.kind with
  | .irScan => .pauseIr
  | .drScan => .pauseDr
  | .tapReset => .reset
  | .idleClocks => .idle

def abortPauseReached (s : State) : State :=
  if s.sce.abortDue then
    match s.sce.running with
    | some r => arbitrate (endDriven r r.scan.abortState .scanFail .aborted .aborted s)
    | none => s
  else s

def returnClockTimeout (s : State) : State :=
  if s.sce.timeoutDue then scanFault .timeout .timeout s else s

/-- RCLK and TDO as sampled: a rise of RCLK is an edge a running check counts (R39), and the engine may follow, and drive
the rising edge that waited for it (R151). -/
def sampleReturn (rclk tdo : Bool) (s : State) : State :=
  { s with
    pins := { s.pins with rclk := rclk, tdo := tdo }
    stu := { s.stu with check := s.stu.check.count 0 0 (if !s.pins.rclk && rclk then 1 else 0) }
    sce := s.sce.sampled rclk tdo }

/-- RCLK and TDO as sampled; the clock in progress completes if its falling edge is due. -/
def tckClock (rclk tdo : Bool) (s : State) : State :=
  let s1 := sampleReturn rclk tdo s
  if s1.sce.fallDue then completeClock s1 else s1

/-! ## Slots (8.10) -/

/-- An injection of a slot by the sequencer (R106, R168). -/
def injectScan (n : Fin 4) (s : State) : State :=
  let x := s.sce.slots[n]
  match x.state with
  | .loaded | .done | .failed | .aborted =>
    arbitrate { s with sce := { s.sce with slots := put s.sce.slots n { x with state := .queued, result := none } } }
  | _ => s

/-! ## Requests -/

/-- The power lane and level of SCAN CONFIG: a lane or 255 for NONE, then the level. -/
def serveScanConfig (q : Request) (s : State) : State :=
  match toFin 8 (byteAt q.payload 0), finOrNoneAt 16 q.payload 2, flagAt q.payload 3 with
  | some k, some lane, some level =>
    if s.sce.phase ≠ .free ∨ s.sce.queue ≠ [] then refuse q .state s
    else if lane.any fun i => s.stu.lanes[i].mode != .sense then refuse q .state s
    else
      done q []
        { s with
          sce := { s.sce with rate := k, timeout := byteAt q.payload 1, powerLane := lane, powerLevel := level } }
  | _, _, _ => refuse q .range s

/-- SCAN SUBMIT: FULL, then STATE, then RANGE, else queued, and taken at once by a FREE engine (R155). -/
def serveScanSubmit (q : Request) (s : State) : State :=
  if Config.scanPlaces ≤ s.sce.queue.length then refuse q .full s
  else if s.sce.tracked = .unknown ∧ byteAt q.payload 0 ≠ 2 then refuse q .state s
  else
    match scanAt q.payload 0 with
    | none => refuse q .range s
    | some c => arbitrate { s with sce := { s.sce with queue := s.sce.queue ++ [{ ticket := q.ticket, scan := c }] } }

def serveScanAbortBoundary (q : Request) (s : State) : State :=
  if byteAt q.payload 0 = 0 then done q (num 1 s.sce.waiting) (flush s) else refuse q .range s

/-- An IMMEDIATE abort is taken for the running scan (R165, R166). -/
def Sce.takeAbort (u : Sce) : Sce := { u with running := u.running.map fun r => { r with abortTaken := true } }

def serveScanAbortImmediate (q : Request) (s : State) : State :=
  if byteAt q.payload 0 = 1 then
    let s1 := flush s
    done q (num 1 s.sce.waiting) { s1 with sce := s1.sce.takeAbort }
  else refuse q .range s

def serveSlotLoad (q : Request) (s : State) : State :=
  match toFin 4 (byteAt q.payload 0), scanAt q.payload 1 with
  | some n, some c =>
    if s.sce.slots[n].state = .queued ∨ s.sce.slots[n].state = .running then refuse q .busy s
    else
      done q []
        { s with sce := { s.sce with slots := put s.sce.slots n { state := .loaded, scan := some c, result := none } } }
  | _, _ => refuse q .range s

/-- What SLOT READ carries (R169, 11.2): an EMPTY slot's scan reads 0 (log 10), and an empty result has outcome 255. -/
def Sce.slotBytes (u : Sce) (n : Fin 4) : List Byte :=
  let x := u.slots[n]
  num 1 x.state.num ++ (x.scan.map Scan.bytes).getD (num 4 0) ++
    num 1 ((x.result.map fun r => r.outcome.num).getD 255) ++ resultBytes ((x.result.map fun r => r.tdo).getD []) ++
    (if x.state = .running then num 2 ((u.running.map fun r => r.tdo.length).getD 0) else [])

def serveSlotRead (q : Request) (s : State) : State :=
  match toFin 4 (byteAt q.payload 0) with
  | some n => done q (s.sce.slotBytes n) s
  | none => refuse q .range s

/-- The origin of a running scan in SCAN STATUS: a slot number, or 255 for the station (log 10). -/
def ScanOrigin.num : ScanOrigin → Nat
  | .station _ => 255
  | .slot n => n.val

/-- What SCAN STATUS carries (R170). -/
def scanStatusBytes (s : State) : List Byte :=
  num 1 s.sce.rate.val ++ num 1 s.sce.timeout ++ numOrNone (s.sce.powerLane.map Fin.val) ++
    numFlag s.sce.powerLevel ++ numOrNone (s.sce.powerLane.map fun i => bit (s.laneLevel i)) ++
    num 1 s.sce.tracked.num ++ num 1 s.sce.phase.num ++
    group 5 (s.sce.running.map fun r =>
      num 1 r.scan.kind.num ++ num 1 r.origin.num ++ num 2 r.tdo.length ++ numFlag r.abortTaken) ++
    num 1 s.sce.queue.length ++ (s.sce.slots.toList.flatMap fun x => num 1 x.state.num)

/-! ## Commands -/

/-- SCAN_COMPLETE (R160). -/
def execScanComplete (s : State) : Outcome := .next (scanComplete s)

/-- RETURN_CLOCK_TIMEOUT (R151, R161). -/
def execReturnClockTimeout (s : State) : Outcome := .next (returnClockTimeout s)

/-- ABORT_PAUSE_REACHED (R165, R166). -/
def execAbortPauseReached (s : State) : Outcome := .next (abortPauseReached s)

/-- TCK_CLOCK (R150, R151). -/
def execTckClock (rclk tdo : Bool) (s : State) : Outcome := .next (tckClock rclk tdo s)

/-- SCAN CONFIG (R152). -/
def execScanConfig (s : State) : Outcome := .next (serve codeScanConfig serveScanConfig s)

/-- SCAN SUBMIT (R155). -/
def execScanSubmit (s : State) : Outcome := .next (serve codeScanSubmit serveScanSubmit s)

/-- SCAN ABORT with mode BOUNDARY (R164). -/
def execScanAbortBoundary (s : State) : Outcome :=
  .next (serveWhen codeScanAbort (modeFits 0 0 1) serveScanAbortBoundary s)

/-- SCAN ABORT with mode IMMEDIATE (R164–R166). -/
def execScanAbortImmediate (s : State) : Outcome :=
  .next (serveWhen codeScanAbort (modeFits 0 1 1) serveScanAbortImmediate s)

/-- SLOT LOAD (R167). -/
def execSlotLoad (s : State) : Outcome := .next (serve codeSlotLoad serveSlotLoad s)

/-- SLOT READ (R169). -/
def execSlotRead (s : State) : Outcome := .next (serve codeSlotRead serveSlotRead s)

/-- SCAN STATUS (R170). -/
def execScanStatus (s : State) : Outcome :=
  .next (serve codeScanStatus (fun q t => done q (scanStatusBytes t) t) s)

end Sys2Proof.Machine
end

