-- ==== Sys2Proof/Machine/TimeBase.lean ====
section
/-! DEFINITION. The Time Base Unit (1.3, 1.4): the advance of the time base, trim, and time set. -/

namespace Sys2Proof.Machine

/-! ## The advance at a core clock -/

/-- Whether the trim T selects a period of the frame (R12). -/
def trimSelects (t : Int) (period : Nat) : Bool :=
  let a := t.natAbs
  (a.testBit 0 && period == 9) ||
    (a.testBit 1 && (period == 5 || period == 13)) ||
    (a.testBit 2 && (period == 3 || period == 7 || period == 11 || period == 15)) ||
    (a.testBit 3 && period % 2 == 0)

/-- What the time base advances by at the next core clock, in ns (R11). -/
def Tbu.increment (u : Tbu) : Int :=
  if u.period ≤ u.frameClock && trimSelects u.trim u.framePeriod then 8 + u.trim.sign else 8

/-- One core clock at the time base: the base advances, the frame position and the tick divider move on (R11, R12, R14). -/
def Tbu.advance (u : Tbu) : Tbu :=
  let last := decide (u.period ≤ u.frameClock)
  { u with
    base := u.base + BitVec.ofInt 48 u.increment
    framePeriod := if last then u.framePeriod % 16 + 1 else u.framePeriod
    frameClock := if last then 1 else u.frameClock + 1
    divider := if 125 ≤ u.divider then 1 else u.divider + 1
    tickDue := u.tickDue || decide (125 ≤ u.divider) }

/-! ## Time set -/

/-- The Capture Store takes the notice of an applied time set: mark-due is set in every ring (R132). -/
def Cst.timeSetNotice (c : Cst) : Cst := { c with rings := mapAll (fun r => { r with markDue := true }) c.rings }

/-- The record of a time set (R16). -/
def timeSetRecord (v : Stamp) : Record := newRecord srcTime .timeSet v (timeKey v)

/-- A time set is applied with its new value, for the request that asked for it (R16). -/
def applyTimeSet (v : Stamp) (t : Ticket) (s : State) : State :=
  respond t .done (numStamp v)
    (setAlert .timeSetApplied
      (let s1 := produce (timeSetRecord v) { s with tbu := { s.tbu with base := v } }
       { s1 with cst := s1.cst.timeSetNotice }))

/-- An armed set is withdrawn, and its request answered (R17). -/
def withdrawArmed (st : Status) (s : State) : State :=
  match s.tbu.armed with
  | some a => respond a.ticket st [] { s with tbu := { s.tbu with armed := none } }
  | none => s

/-- An accepted edge of a lane reaches the Time Base Unit (R15, R24): a rising edge of the armed lane applies the set,
with V + (a − t0) as the new value (R16). -/
def timeSetEdge (lane : Fin 16) (level : Bool) (t0 : Stamp) (s : State) : State :=
  match s.tbu.armed with
  | some a =>
    if a.lane = lane ∧ level = true then
      applyTimeSet (a.value + (s.now - t0)) a.ticket { s with tbu := { s.tbu with armed := none } }
    else s
  | none => s

/-- The value V of a TIME SET payload (11.2). -/
def timeSetValue (p : List Byte) : Stamp := BitVec.ofNat 48 (numAt p 2 6)

def serveTimeSetImmediate (q : Request) (s : State) : State :=
  if byteAt q.payload 0 = 0 then applyTimeSet (timeSetValue q.payload) q.ticket (withdrawArmed .superseded s)
  else refuse q .range s

def serveTimeSetArmed (q : Request) (s : State) : State :=
  if byteAt q.payload 0 = 1 then
    match toFin 16 (byteAt q.payload 1) with
    | none => refuse q .range s
    | some lane =>
      if s.stu.lanes[lane].mode = .sense then
        let s1 := withdrawArmed .superseded s
        let set : ArmedSet := { lane, value := timeSetValue q.payload, ticket := q.ticket }
        { s1 with tbu := { s1.tbu with armed := some set } }
      else refuse q .state s
  else refuse q .range s

def serveTimeSetCancel (q : Request) (s : State) : State :=
  if byteAt q.payload 0 = 2 then
    if s.tbu.armed.isSome then done q [] (withdrawArmed .aborted s) else refuse q .state s
  else refuse q .range s

/-! ## Trim and reading -/

/-- T clamped to −15 to +15 (R13). -/
def clampTrim (t : Int) : Int := max (-15) (min 15 t)

/-- The trim stored and the frame position restarted (R13). -/
def Tbu.retrim (u : Tbu) (p : Nat) (t : Int) : Tbu :=
  { u with period := p, trim := clampTrim t, framePeriod := 1, frameClock := 1 }

def serveTimeTrim (q : Request) (s : State) : State :=
  let p := numAt q.payload 0 4
  let t := signedByteAt q.payload 4
  if p = 0 ∨ 65536 < p then refuse q .range s
  else done q (num 4 p ++ numSigned (clampTrim t)) { s with tbu := s.tbu.retrim p t }

/-- What TIME READ carries (R18). -/
def Tbu.bytes (u : Tbu) : List Byte :=
  numStamp u.base ++ num 4 u.period ++ numSigned u.trim ++
    group 7 (u.armed.map fun a => num 1 a.lane.val ++ numStamp a.value)

/-- TIME READ (R18). -/
def execTimeRead (s : State) : Outcome :=
  .next (serve codeTimeRead (fun q t => done q t.tbu.bytes t) s)

/-- TIME TRIM (R13). -/
def execTimeTrim (s : State) : Outcome := .next (serve codeTimeTrim serveTimeTrim s)

/-- TIME SET with mode IMMEDIATE (R15, R17). -/
def execTimeSetImmediate (s : State) : Outcome :=
  .next (serveWhen codeTimeSet (modeFits 0 0 2) serveTimeSetImmediate s)

/-- TIME SET with mode ARMED (R15, R17). -/
def execTimeSetArmed (s : State) : Outcome :=
  .next (serveWhen codeTimeSet (modeFits 0 1 2) serveTimeSetArmed s)

/-- TIME SET with mode CANCEL (R17). -/
def execTimeSetCancel (s : State) : Outcome :=
  .next (serveWhen codeTimeSet (modeFits 0 2 2) serveTimeSetCancel s)

end Sys2Proof.Machine
end

