-- ==== Sys2Proof/Machine/Lane.lean ====
section
/-! DEFINITION. The Signal Tap Unit (chapter 2): lane filters, the power-state decoder, the clock presence check. -/

namespace Sys2Proof.Machine

/-! ## Lanes (2.1) -/

/-- Replace a lane. -/
def setLane (i : Fin 16) (l : Lane) (s : State) : State := { s with stu := { s.stu with lanes := put s.stu.lanes i l } }

/-- Set the level on a lane's pin. -/
def setLanePin (i : Fin 16) (level : Bool) (s : State) : State :=
  { s with pins := { s.pins with lanes := put s.pins.lanes i level } }

/-- The logical level of a pin level under a polarity (R20). -/
def logicalLevel (p : Polarity) (pin : Bool) : Bool :=
  match p with
  | .activeHigh => pin
  | .activeLow => !pin

/-- The reject width in core clocks: BYPASS, 1, 8, 64, 512 µs (2.1). -/
def Lane.rejectClocks (l : Lane) : Nat :=
  match l.width with
  | 0 => 0
  | 1 => 125
  | 2 => 1000
  | 3 => 8000
  | 4 => 64000

/-- Whether the edge report selects a direction (R21). -/
def EdgeReport.selects (e : EdgeReport) (rising : Bool) : Bool :=
  match e with
  | .none => false
  | .rise => rising
  | .fall => !rising
  | .both => true

/-- Whether the logical sample differs from the accepted level (R20). -/
def State.laneDiffers (s : State) (i : Fin 16) : Bool :=
  logicalLevel s.stu.lanes[i].polarity s.pins.lanes[i] != s.stu.lanes[i].accepted

/-- The EDGE record of an accepted change (R21). -/
def edgeRecord (i : Fin 16) (level : Bool) (t0 : Stamp) : Record :=
  newRecord (srcLane i) (if level then .edgeRise else .edgeFall) t0 (edgeKey i level)

/-! ## The decoder (2.3) -/

def setDecoder (d : Decoder) (s : State) : State := { s with stu := { s.stu with decoder := d } }

/-- The code in force: c·4 + b·2 + a of the accepted levels (R32). -/
def State.code (s : State) : Fin 8 :=
  let d := s.stu.decoder
  ⟨bit (s.laneLevel d.c) % 2 * 4 + bit (s.laneLevel d.b) % 2 * 2 + bit (s.laneLevel d.a) % 2, by omega⟩

/-- A STATE or SEQ-VIOLATION record (R31, R33). -/
def stateRecord (k : Kind) (old : Option PlatformState) (new : PlatformState) (code : Fin 8) (at_ : Stamp) : Record :=
  newRecord srcPstate k at_ (stateKey old (some new) code)

/-- The decode table entry of the present code. -/
def State.decoded (s : State) : DecodeEntry := s.stu.decoder.table[s.code]

/-- Whether the current state is no allowed predecessor of an entry's state (R33). -/
def DecodeEntry.forbids (e : DecodeEntry) (current : Option PlatformState) : Bool :=
  match current with
  | some p => !e.allowed.getLsbD p.num
  | none => true

/-- The decoder's episode ends with the current state set. -/
def Decoder.settled (d : Decoder) (x : PlatformState) : Decoder := { d with current := some x, episode := none }

/-- A running episode expires and the decoder looks up the present code (R33). -/
def expireEpisode (s : State) : State :=
  match s.stu.decoder.episode with
  | none => s
  | some e =>
    let x := s.decoded.state
    let old := s.stu.decoder.current
    let settled := setDecoder (s.stu.decoder.settled x) s
    if old = some x then settled
    else
      let reported := produce (stateRecord .state old x s.code e.stamp) settled
      if s.decoded.forbids old then
        setAlert .seqViolation (produce (stateRecord .seqViolation old x s.code e.stamp) reported)
      else reported

/-- Whether the decoder is enabled and names a lane. -/
def Decoder.names (d : Decoder) (i : Fin 16) : Bool := d.enabled && (i == d.a || i == d.b || i == d.c)

/-- An accepted change reaches the decoder: the settle episode opens or restarts, and with S = 0 expires at once (R32,
R33). -/
def decoderEdge (i : Fin 16) (t0 : Stamp) (s : State) : State :=
  let d := s.stu.decoder
  if d.names i then
    let e : Episode := { stamp := (d.episode.map (·.stamp)).getD t0, count := 0 }
    let s1 := setDecoder { d with episode := some e } s
    if d.settle = 0 then expireEpisode s1 else s1
  else s

/-! ## Accepted changes (R21–R25) -/

/-- An accepted change is given to every user of the lane, the Time Base Unit first and the Scan Engine last (log 40); a
re-sense is no edge for the Time Base Unit (R24, R25). -/
def acceptedChange (i : Fin 16) (level : Bool) (t0 : Stamp) (byEdge : Bool) (s : State) : State :=
  scanPowerEdge i level (decoderEdge i t0 (if byEdge then timeSetEdge i level t0 s else s))

/-- A change is accepted: the level, the last edge stamp, the record if reported, and the users (R21, R23). -/
def acceptEdge (i : Fin 16) (t0 : Stamp) (s : State) : State :=
  let l := s.stu.lanes[i]
  let level := !l.accepted
  let s1 := setLane i { l with accepted := level, filter := .steady, lastEdge := some t0 } s
  acceptedChange i level t0 true (if l.edges.selects level then produce (edgeRecord i level t0) s1 else s1)

/-- Whether a lane's departure begins: STEADY under a reject width and the sample differs (R21). -/
def State.departureDue (s : State) (i : Fin 16) : Bool :=
  s.stu.lanes[i].mode == .sense && s.stu.lanes[i].width != 0 && s.stu.lanes[i].filter == .steady && s.laneDiffers i

def laneDeparture (i : Fin 16) (s : State) : State :=
  if s.departureDue i then setLane i { s.stu.lanes[i] with filter := .pending s.now 0 } s else s

/-- The departure stamp, once a departure has persisted for the reject width (R21). -/
def Lane.acceptDue (l : Lane) : Option Stamp :=
  match l.mode, l.filter with
  | .sense, .pending t0 n => if l.rejectClocks ≤ n then some t0 else none
  | _, _ => none

def laneAcceptance (i : Fin 16) (s : State) : State :=
  match s.stu.lanes[i].acceptDue with
  | some t0 => acceptEdge i t0 s
  | none => s

/-- The departure stamp and elapsed clocks of a departure that has returned before the reject width (R22). -/
def State.glitchDue (s : State) (i : Fin 16) : Option (Stamp × Nat) :=
  match s.stu.lanes[i].mode, s.stu.lanes[i].filter with
  | .sense, .pending t0 n =>
    if 1 ≤ n ∧ n < s.stu.lanes[i].rejectClocks ∧ s.laneDiffers i = false then some (t0, n) else none
  | _, _ => none

/-- The GLITCH record, with the width in whole µs (R22). -/
def glitchRecord (i : Fin 16) (t0 : Stamp) (clocks : Nat) : Record :=
  newRecord (srcLane i) .glitch t0 (glitchKey i (clocks / Config.clocksPerUs))

def laneGlitch (i : Fin 16) (s : State) : State :=
  match s.glitchDue i with
  | some (t0, n) =>
    let l := s.stu.lanes[i]
    let s1 := setLane i { l with filter := .steady, glitchCount := min 65535 (l.glitchCount + 1) } s
    if l.glitches then produce (glitchRecord i t0 n) s1 else s1
  | none => s

/-- Whether a BYPASS lane accepts a change at this clock (R23). -/
def State.bypassDue (s : State) (i : Fin 16) : Bool :=
  s.stu.lanes[i].mode == .sense && s.stu.lanes[i].width == 0 && s.laneDiffers i

def laneBypass (i : Fin 16) (s : State) : State := if s.bypassDue i then acceptEdge i s.now s else s

/-! ## Lane requests (2.2) -/

/-- The uses of a lane in force (R26): the decoder, the scan power lane, an armed time set. -/
def State.laneUses (s : State) (i : Fin 16) : List Bool :=
  [s.stu.decoder.names i, s.sce.powerLane == some i, s.tbu.armed.any fun a => a.lane == i]

/-- Whether a lane is in use. -/
def State.laneInUse (s : State) (i : Fin 16) : Bool := (s.laneUses i).any id

/-- The settings LANE CONFIG carries (R25). -/
structure LaneSettings where
  mode : LaneMode
  polarity : Polarity
  width : Fin 5
  edges : EdgeReport
  glitches : Bool
  deriving DecidableEq, Repr

def laneSettingsAt (p : List Byte) : Option (Fin 16 × LaneSettings) := do
  let lane ← toFin 16 (byteAt p 0)
  let mode ← laneModeAt p 1
  let polarity ← polarityAt p 2
  let width ← toFin 5 (byteAt p 3)
  let edges ← edgeReportAt p 4
  let glitches ← yesNoAt p 5
  return (lane, { mode, polarity, width, edges, glitches })

/-- The lane with new settings and its filter as the table of R25 gives, for the level on its pin. -/
def Lane.configure (l : Lane) (c : LaneSettings) (pin : Bool) : Lane :=
  let stored :=
    { l with mode := c.mode, polarity := c.polarity, width := c.width, edges := c.edges, glitches := c.glitches }
  match l.mode, c.mode with
  | .off, .off => stored
  | .sense, .off => { stored with filter := .steady, accepted := false }
  | .off, .sense => { stored with filter := .steady, accepted := logicalLevel c.polarity pin }
  | .sense, .sense =>
    if c.polarity = l.polarity ∧ c.width = l.width then stored
    else { stored with filter := .steady, accepted := logicalLevel c.polarity pin }

/-- LANE CONFIG (R25): a re-sense that changes the accepted level is an accepted change stamped at the serving clock. Its
DONE comes after the responses of a scan the change ends (R162; log 34). -/
def serveLaneConfig (q : Request) (s : State) : State :=
  match laneSettingsAt q.payload with
  | none => refuse q .range s
  | some (i, c) =>
    let l := s.stu.lanes[i]
    if s.laneInUse i ∧ l.mode = .sense ∧ c.mode = .off then refuse q .state s
    else
      let l1 := l.configure c s.pins.lanes[i]
      let s1 := setLane i l1 s
      done q []
        (if l.mode = .sense ∧ c.mode = .sense ∧ l1.accepted ≠ l.accepted then
          acceptedChange i l1.accepted s.now false s1
        else s1)

/-- What LANE STATUS carries of a lane (R27). -/
def laneBytes (s : State) (i : Fin 16) : List Byte :=
  let l := s.stu.lanes[i]
  num 1 l.mode.num ++ num 1 (bit l.accepted) ++ num 1 l.filter.num ++ num 2 l.glitchCount ++
    group 6 (l.lastEdge.map numStamp) ++ num 1 (setToNat (s.laneUses i))

def laneStatusBytes (s : State) : List Byte := (List.finRange 16).flatMap (laneBytes s)

def serveGlitchClear (q : Request) (s : State) : State :=
  let mask := numAt q.payload 0 2
  done q []
    { s with
      stu :=
        { s.stu with
          lanes := mapEach (fun i l => if mask.testBit i.val then { l with glitchCount := 0 } else l) s.stu.lanes } }

/-! ## Decoder requests (2.3) -/

/-- The settings DECODE CONFIG carries (R30). -/
structure DecodeSettings where
  a : Fin 16
  b : Fin 16
  c : Fin 16
  settle : Nat
  enable : Bool
  deriving DecidableEq, Repr

def decodeSettingsAt (p : List Byte) : Option DecodeSettings := do
  let a ← toFin 16 (byteAt p 0)
  let b ← toFin 16 (byteAt p 1)
  let c ← toFin 16 (byteAt p 2)
  let settle := numAt p 3 2
  let enable ← yesNoAt p 5
  if 1023 < settle then none
  return { a, b, c, settle, enable }

def Decoder.store (d : Decoder) (c : DecodeSettings) : Decoder :=
  { d with a := c.a, b := c.b, c := c.c, settle := c.settle }

/-- Enabling decodes the present code at once (R31). -/
def enableDecoder (c : DecodeSettings) (s : State) : State :=
  let s1 := setDecoder { s.stu.decoder.store c with enabled := true } s
  let x := s1.decoded.state
  produce { stateRecord .state none x s1.code s.now with flags := { initial := true } }
    (setDecoder (s1.stu.decoder.settled x) s1)

/-- Disabling abandons the episode and the current state (R35). -/
def disableDecoder (c : DecodeSettings) (s : State) : State :=
  setDecoder { s.stu.decoder.store c with enabled := false, episode := none, current := none } s

def serveDecodeConfig (q : Request) (s : State) : State :=
  match decodeSettingsAt q.payload with
  | none => refuse q .range s
  | some c =>
    if s.stu.decoder.enabled then
      if c.enable then refuse q .state s else done q [] (disableDecoder c s)
    else if c.enable then
      if [c.a, c.b, c.c].all fun i => s.stu.lanes[i].mode == .sense then done q [] (enableDecoder c s)
      else refuse q .state s
    else done q [] (setDecoder (s.stu.decoder.store c) s)

/-- An entry of the decode table from its two bytes (11.2). -/
def decodeEntryAt (p : List Byte) (i : Nat) : Option DecodeEntry := do
  let state ← platformStateOf (byteAt p (2 * i))
  if 32 ≤ byteAt p (2 * i + 1) then none
  return { state, allowed := BitVec.ofNat 5 (byteAt p (2 * i + 1)) }

def decodeTableAt (p : List Byte) : Option (Vector DecodeEntry 8) := do
  let e0 ← decodeEntryAt p 0
  let e1 ← decodeEntryAt p 1
  let e2 ← decodeEntryAt p 2
  let e3 ← decodeEntryAt p 3
  let e4 ← decodeEntryAt p 4
  let e5 ← decodeEntryAt p 5
  let e6 ← decodeEntryAt p 6
  let e7 ← decodeEntryAt p 7
  return #v[e0, e1, e2, e3, e4, e5, e6, e7]

def serveDecodeLoad (q : Request) (s : State) : State :=
  match decodeTableAt q.payload with
  | none => refuse q .range s
  | some t =>
    if s.stu.decoder.enabled then refuse q .state s else done q [] (setDecoder { s.stu.decoder with table := t } s)

def DecodeEntry.bytes (e : DecodeEntry) : List Byte := num 1 e.state.num ++ num 1 e.allowed.toNat

/-- What DECODE READ carries (R37): of a running episode one presence flag and its stamp (log 10). -/
def decodeBytes (s : State) : List Byte :=
  let d := s.stu.decoder
  num 1 d.a.val ++ num 1 d.b.val ++ num 1 d.c.val ++ num 2 d.settle ++ numYesNo d.enabled ++
    d.table.toList.flatMap DecodeEntry.bytes ++ numOrNone (d.current.map PlatformState.num) ++ num 1 s.code.val ++
    group 6 (d.episode.map fun e => numStamp e.stamp)

/-! ## Clock presence check (2.4) -/

def setCheck (c : ClockCheck) (s : State) : State := { s with stu := { s.stu with check := c } }

/-- A check started or restarted; a running one is superseded (R39, R40). -/
def serveClockCheck (q : Request) (s : State) : State :=
  let s1 :=
    match s.stu.check.running with
    | some t => respond t .superseded [] s
    | none => s
  setCheck { running := some q.ticket, core := 0, bref := 0, rclk := 0 } s1

/-- The edges BREF and RCLK give in each core clock from now on. -/
def setEdgeRates (bref rclk : BitVec 8) (s : State) : State :=
  { s with pins := { s.pins with brefEdges := bref, rclkEdges := rclk } }

/-- The end of a check, when a counter has reached 255: the record and the response carry the three counts, which the
counters keep (R39). -/
def clockCheckEnd (s : State) : State :=
  let c := s.stu.check
  match c.running with
  | some t =>
    if c.over then
      respond t .done (num 1 c.core ++ num 1 c.bref ++ num 1 c.rclk)
        (produce (newRecord srcClock .clockResult s.now (clockKey c.core c.bref c.rclk))
          (setCheck { c with running := none } s))
    else s
  | none => s

/-! ## Commands -/

/-- LANE_DEPARTURE (R20, R21). -/
def execLaneDeparture (i : Fin 16) (pin : Bool) (s : State) : Outcome := .next (laneDeparture i (setLanePin i pin s))

/-- LANE_ACCEPTANCE (R21, R24). -/
def execLaneAcceptance (i : Fin 16) (s : State) : Outcome := .next (laneAcceptance i s)

/-- GLITCH (R22). -/
def execGlitch (i : Fin 16) (pin : Bool) (s : State) : Outcome := .next (laneGlitch i (setLanePin i pin s))

/-- BYPASS_ACCEPTED_CHANGE (R23, R24). -/
def execBypassAcceptedChange (i : Fin 16) (pin : Bool) (s : State) : Outcome :=
  .next (laneBypass i (setLanePin i pin s))

/-- Whether a running episode's settle count has reached 125·S (R33). -/
def Decoder.expiryDue (d : Decoder) : Bool := d.episode.any fun e => decide (Config.clocksPerUs * d.settle ≤ e.count)

/-- EPISODE_EXPIRY (R33). -/
def execEpisodeExpiry (s : State) : Outcome := .next (if s.stu.decoder.expiryDue then expireEpisode s else s)

/-- CLOCK_CHECK_END (R39), with the edges BREF and RCLK give in each core clock (log 24). -/
def execClockCheckEnd (bref rclk : BitVec 8) (s : State) : Outcome := .next (clockCheckEnd (setEdgeRates bref rclk s))

/-- LANE CONFIG (R25). -/
def execLaneConfig (s : State) : Outcome := .next (serve codeLaneConfig serveLaneConfig s)

/-- LANE STATUS (R27). -/
def execLaneStatus (s : State) : Outcome := .next (serve codeLaneStatus (fun q t => done q (laneStatusBytes t) t) s)

/-- GLITCH CLEAR (R28). -/
def execGlitchClear (s : State) : Outcome := .next (serve codeGlitchClear serveGlitchClear s)

/-- DECODE CONFIG (R30, R31, R35). -/
def execDecodeConfig (s : State) : Outcome := .next (serve codeDecodeConfig serveDecodeConfig s)

/-- DECODE LOAD (R36). -/
def execDecodeLoad (s : State) : Outcome := .next (serve codeDecodeLoad serveDecodeLoad s)

/-- DECODE READ (R37). -/
def execDecodeRead (s : State) : Outcome := .next (serve codeDecodeRead (fun q t => done q (decodeBytes t) t) s)

/-- CLOCK CHECK (R39, R40). -/
def execClockCheck (s : State) : Outcome := .next (serve codeClockCheck serveClockCheck s)

end Sys2Proof.Machine
end

