-- ==== Sys2Proof/Machine/Ring.lean ====
section
/-! DEFINITION. The Capture Store (chapter 7): entries and their words, marks, window and stream writes, readout, export,
requests. -/

namespace Sys2Proof.Machine

/-! ## Entries (7.3, R204) -/

def Entry.isMark : Entry → Bool
  | .mark _ => true
  | _ => false

/-- The size of an entry in words (R129). -/
def Entry.words : Entry → Nat
  | .ordinary _ _ _ _ _ _ _ body => 3 + (body.length + 3) / 4
  | _ => 3

/-- The words a list of entries fills (R126). -/
def wordsOf (l : List Entry) : Nat := (l.map Entry.words).sum

/-- The flags field of a descriptor (11.3). -/
def RecFlags.num (f : RecFlags) : Nat :=
  bit f.truncated + 2 * bit f.continued + 4 * bit f.framing + 8 * bit f.saturated + 16 * bit f.blanked +
    32 * bit f.initial

/-- The origin field of a descriptor: 0 absent, 1 STATION, 2 SEQUENCER. -/
def originField (o : Option Origin) : Nat := (o.map fun o => o.num + 1).getD 0

/-- The trigger cause as a TRIG key (11.3). -/
def Cause.key (c : Cause) : Word :=
  field 29 3 c.level.val ||| field 27 2 ((c.branch.map BranchId.num).getD 3) |||
    field 22 5 ((c.cls.map Fin.val).getD 31)

/-- A delta in bits 31–8 of a word, two's complement (R204). -/
def deltaField (d : Int) : Word := (BitVec.ofInt 32 d) <<< 8

/-- Body bytes in whole words, the first byte in bits 31–24, padded with 0 (R204). -/
def bodyWords : Nat → List Byte → List Word
  | 0, _ => []
  | n + 1, l => textKey (l.take 4) :: bodyWords n (l.drop 4)

/-- The words of an entry (11.3). -/
def Entry.encode : Entry → List Word
  | .ordinary src k f o d lost key body =>
    [field 24 6 src.val ||| field 19 5 k.num ||| field 14 5 body.length ||| field 8 6 f.num |||
        field 6 2 (originField o),
      deltaField d ||| field 0 8 lost, key] ++ bodyWords ((body.length + 3) / 4) body
  | .mark s => [field 30 2 1, (s >>> 32).setWidth 32, s.setWidth 32]
  | .trig d c => [field 30 2 2, deltaField d, c.key]
  | .gap d n => [field 30 2 3, deltaField d, BitVec.ofNat 32 n]

/-- Entries as the bytes of a frame, each word most significant byte first. -/
def entryBytes (l : List Entry) : List Byte := (l.flatMap Entry.encode).flatMap fun w => num 4 w.toNat

/-- The ordinary entry of an offered record, without its body when the deciding entry strips it (R85, R129). -/
def ordinaryEntry (r : Record) (strip : Bool) (delta : Int) : Entry :=
  .ordinary r.source r.kind r.flags r.origin delta r.lost r.key (if strip then [] else r.body)

/-! ## Room and marks (R126, R130, R131) -/

/-- A ring's capacity in words (R126). -/
def Ring.capacity (r : Ring) : Nat := r.size * Config.blockWords

/-- A ring's occupancy in words (R126). -/
def Ring.occupancy (r : Ring) : Nat := wordsOf r.entries

def Ring.room (r : Ring) : Nat := r.capacity - r.occupancy

/-- The delta of a stamp from a reference, read as a signed number (R131). -/
def deltaOf (s ref : Stamp) : Int := (s - ref).toInt

/-- Whether a delta fits 24 bits (R131). -/
def deltaFits (d : Int) : Bool := decide (-8388608 ≤ d) && decide (d ≤ 8388607)

/-- Whether R130 calls for a MARK before an entry with stamp s. -/
def Ring.needsMark (r : Ring) (s : Stamp) : Bool :=
  r.entries.isEmpty || r.markDue || decide (64 ≤ r.sinceMark) ||
    (match r.reference with
      | some ref => !deltaFits (deltaOf s ref)
      | none => true)

/-- A MARK written (R130). -/
def Ring.pushMark (r : Ring) (s : Stamp) : Ring :=
  { r with
    entries := r.entries ++ [.mark s]
    reference := some s
    head := if r.entries.isEmpty then some s else r.head
    markDue := false
    sinceMark := 0 }

/-- The ring ready for an entry with stamp s: a MARK first if R130 calls for one. -/
def Ring.marked (r : Ring) (s : Stamp) : Ring := if r.needsMark s then r.pushMark s else r

/-- An entry with stamp s written, its delta from the reference then in force (R130, R131). -/
def Ring.write (r : Ring) (s : Stamp) (e : Int → Entry) : Ring :=
  let m := r.marked s
  { m with
    entries := m.entries ++ [e (deltaOf s (m.reference.getD s))]
    sinceMark := m.sinceMark + 1 }

/-- The words writing an entry of stamp s needs (R135). -/
def Ring.needs (r : Ring) (s : Stamp) (e : Int → Entry) : Nat := (e 0).words + (if r.needsMark s then 3 else 0)

/-! ## Window rings (R134–R140) -/

/-- The oldest mark group: the oldest entry and those after it up to the next MARK (R135). -/
def oldestGroup : List Entry → List Entry
  | [] => []
  | e :: es => e :: es.takeWhile fun x => !x.isMark

/-- The stamp of the entry at the oldest end, if it is a MARK. -/
def headStamp : List Entry → Option Stamp
  | .mark s :: _ => some s
  | _ => none

/-- The oldest mark group removed (R135). -/
def Ring.dropGroup (r : Ring) : Ring :=
  let n := (oldestGroup r.entries).length
  let rest := r.entries.drop n
  { r with entries := rest, head := headStamp rest, trig := r.trig.map fun i => i - n }

/-- Whether the oldest group holds the TRIG entry (R137). -/
def Ring.trigOldest (r : Ring) : Bool := r.trig.any fun i => decide (i < (oldestGroup r.entries).length)

/-- Whole groups removed until the room suffices; false where the TRIG group stands oldest without the room (R135, R137).
Each turn removes a group, so as many turns as entries suffice. -/
def Ring.makeRoom (need : Nat) : Nat → Ring → Ring × Bool
  | 0, r => (r, decide (need ≤ r.room))
  | n + 1, r =>
    if need ≤ r.room then (r, true)
    else if r.trigOldest then (r, false)
    else Ring.makeRoom need n r.dropGroup

/-- An offer to a WINDOW ring in RUNNING or POST, and whether the sequencer gets the notice of a freezing (R134–R138). -/
def Ring.offerWindow (r : Ring) (s : Stamp) (e : Int → Entry) : Ring × Bool :=
  let m := r.makeRoom (r.needs s e) r.entries.length
  if m.2 then
    let w := m.1.write s e
    if r.state = .post then
      let n := w.written + 1
      if r.post ≤ n then ({ w with written := n, state := .frozen }, true) else ({ w with written := n }, false)
    else (w, false)
  else ({ m.1 with state := .frozen, truncated := true }, true)

/-- The TRIG entry written into a RUNNING WINDOW ring, which enters POST or freezes at once (R136). -/
def Ring.trigger (r : Ring) (s : Stamp) (c : Cause) : Ring :=
  let w := (r.makeRoom (r.needs s fun d => .trig d c) r.entries.length).1.write s fun d => .trig d c
  { w with
    trig := some (w.entries.length - 1)
    written := 0
    state := if r.post = 0 then .frozen else .post }

/-- A ring emptied: its history, flags and counts cleared (R127, R139). -/
def Ring.emptied (r : Ring) : Ring :=
  { r with
    entries := [], reference := none, head := none, markDue := false, sinceMark := 0, truncated := false
    stopped := false, dropped := 0, trig := none, written := 0 }

/-- ARM at a ring: a WINDOW ring is emptied and RUNNING (R139). -/
def Ring.arm (r : Ring) : Ring := if r.mode = .window then { r.emptied with state := .running } else r

/-- STOP at a ring: a WINDOW ring RUNNING, or in POST under TRIGGERED, is FROZEN with STOPPED (R140). -/
def Ring.halt (triggered : Bool) (r : Ring) : Ring :=
  if r.mode = .window ∧ (r.state = .running ∨ (triggered = true ∧ r.state = .post)) then
    { r with state := .frozen, stopped := true }
  else r

/-! ## Stream rings (R142, R143) -/

/-- The whole write of an entry into a STREAM ring: a GAP first while the dropped count is not 0. -/
def Ring.streamed (r : Ring) (s : Stamp) (e : Int → Entry) : Ring :=
  let g := if r.dropped = 0 then r else { r.write s (fun d => .gap d r.dropped) with dropped := 0 }
  g.write s e

/-- An offer to a STREAMING ring: written whole, or dropped and counted (R142). -/
def Ring.offerStream (r : Ring) (s : Stamp) (e : Int → Entry) : Ring :=
  let w := r.streamed s e
  if w.occupancy ≤ r.capacity then w else { r with dropped := min (2 ^ 32 - 1) (r.dropped + 1) }

/-- Whether an offer is the first drop, which sets RING-GAP (R142). -/
def Ring.beginsGap (r : Ring) (s : Stamp) (e : Int → Entry) : Bool :=
  r.dropped == 0 && decide (r.capacity < (r.streamed s e).occupancy)

/-- Replace a ring. -/
def setRing (i : Fin 4) (r : Ring) (s : State) : State := { s with cst := { s.cst with rings := put s.cst.rings i r } }

/-! ## Readout (R145–R147) -/

/-- As many whole entries, in order, as fit a number of words and a number of entries. -/
def takeFit : Nat → Nat → List Entry → List Entry
  | _, _, [] => []
  | _, 0, _ => []
  | w, n + 1, e :: es => if e.words ≤ w then e :: takeFit (w - e.words) n es else []

/-- The stamp of the last MARK among entries. -/
def lastMark (l : List Entry) : Option Stamp :=
  l.foldl (fun acc e => match e with | .mark s => some s | _ => acc) none

/-- The header of an export frame or a RING READ response (11.2). -/
def readHeader (ring : Fin 4) (n : Nat) (ref : Stamp) (next total : Nat) : List Byte :=
  num 1 ring.val ++ num 1 n ++ numStamp ref ++ num 4 next ++ num 4 total

/-- The reference in force at a cursor (R147). -/
def Ring.referenceAt (r : Ring) (cursor : Nat) : Stamp := (lastMark (r.entries.take (cursor + 1))).getD 0

/-- The ring an export frame is formed from: the highest priority, then the lowest number (R144). -/
def Cst.exportRing (c : Cst) : Option (Fin 4) :=
  (List.finRange 4).foldl
    (fun best i =>
      let r := c.rings[i]
      if r.state = .streaming ∧ r.entries ≠ [] then
        match best with
        | none => some i
        | some b => if c.rings[b].priority < r.priority then some i else best
      else best)
    none

/-- The entries an export frame takes from a ring (R145). -/
def Ring.exported (r : Ring) : List Entry := takeFit Config.frameWords r.entries.length r.entries

/-- The ring after an export (R145). -/
def Ring.afterExport (r : Ring) : Ring :=
  let l := r.exported
  { r with
    entries := r.entries.drop l.length
    head := match lastMark l with
      | some m => some m
      | none => r.head }

/-- The payload of an export frame (R145, R194). -/
def Ring.exportPayload (r : Ring) (i : Fin 4) : List Byte :=
  readHeader i r.exported.length (r.head.getD 0) 0 0 ++ entryBytes r.exported

/-! ## Requests (7.7) -/

/-- Whether the sequencer is in a run that fixes the WINDOW rings and the levels. -/
def Tsq.busy (u : Tsq) : Bool := u.run == .armed || u.run == .triggered

/-- The settings RING CONFIG carries, in range but for the allocation (R127). -/
structure RingSettings where
  ring : Fin 4
  mode : RingMode
  base : Nat
  size : Nat
  post : Nat
  priority : Nat
  deriving DecidableEq, Repr

def ringSettingsAt (p : List Byte) : Option RingSettings := do
  let ring ← toFin 4 (byteAt p 0)
  let mode ← ringModeOf (byteAt p 1)
  let base := numAt p 2 2
  let size := numAt p 4 2
  let post := numAt p 6 4
  let priority := byteAt p 10
  if 16777215 < post ∨ 3 < priority then none
  return { ring, mode, base, size, post, priority }

/-- Whether the allocation carried shares a block with another ring's (R126, R127). -/
def Cst.overlaps (c : Cst) (x : RingSettings) : Bool :=
  (List.finRange 4).any fun j =>
    let r := c.rings[j]
    j != x.ring && r.mode != .off && decide (x.base < r.base + r.size) && decide (r.base < x.base + x.size)

/-- The allocation checks of R127. -/
def Cst.allows (c : Cst) (x : RingSettings) : Bool :=
  x.mode == .off ||
    (decide (1 ≤ x.size) && decide (x.base < Config.memoryBlocks) && decide (x.base + x.size ≤ Config.memoryBlocks) &&
      !c.overlaps x)

/-- The ring with new settings, emptied (R127). -/
def Ring.configure (r : Ring) (x : RingSettings) : Ring :=
  { r.emptied with
    mode := x.mode
    base := if x.mode = .off then 0 else x.base
    size := if x.mode = .off then 0 else x.size
    post := x.post
    priority := x.priority
    state := if x.mode = .off then .disabled else .ready }

def serveRingConfig (q : Request) (s : State) : State :=
  if s.cst.ready = false then refuse q .notReady s
  else
    match ringSettingsAt q.payload with
    | none => refuse q .range s
    | some x =>
      let r := s.cst.rings[x.ring]
      if s.cst.allows x = false then refuse q .range s
      else if r.state = .running ∨ r.state = .post ∨ r.state = .streaming then refuse q .state s
      else if (r.mode = .window ∨ x.mode = .window) ∧ s.tsq.busy = true then refuse q .state s
      else done q [] (setRing x.ring (r.configure x) s)

def serveRingStart (q : Request) (s : State) : State :=
  if s.cst.ready = false then refuse q .notReady s
  else
    match toFin 4 (byteAt q.payload 0) with
    | none => refuse q .range s
    | some i =>
      let r := s.cst.rings[i]
      if r.mode = .stream ∧ r.state = .ready then done q [] (setRing i { r with state := .streaming } s)
      else refuse q .state s

/-- A STREAMING ring stopped and emptied (R141). -/
def Ring.stopStream (r : Ring) : Ring :=
  { r with
    state := .ready, entries := [], reference := none, head := none, markDue := false, sinceMark := 0, dropped := 0 }

def serveRingStop (q : Request) (s : State) : State :=
  if s.cst.ready = false then refuse q .notReady s
  else
    match toFin 4 (byteAt q.payload 0) with
    | none => refuse q .range s
    | some i =>
      let r := s.cst.rings[i]
      if r.mode = .stream then
        done q [] (if r.state = .streaming then setRing i r.stopStream s else s)
      else refuse q .state s

/-- What RING READ's DONE carries (R146, R147). -/
def Ring.readPayload (r : Ring) (i : Fin 4) (cursor most : Nat) : List Byte :=
  let l := takeFit Config.frameWords most (r.entries.drop cursor)
  readHeader i l.length (r.referenceAt cursor) (cursor + l.length) r.entries.length ++ entryBytes l

def serveRingRead (q : Request) (s : State) : State :=
  if s.cst.ready = false then refuse q .notReady s
  else
    match toFin 4 (byteAt q.payload 0) with
    | none => refuse q .range s
    | some i =>
      let r := s.cst.rings[i]
      let cursor := numAt q.payload 1 4
      let most := numAt q.payload 5 2
      if most = 0 ∨ r.entries.length < cursor then refuse q .range s
      else if r.mode = .window ∧ r.state = .frozen then done q (r.readPayload i cursor most) s
      else refuse q .state s

/-- What RING STATUS carries of a ring: every item of the ring state table and the capacity (R128). -/
def Ring.bytes (r : Ring) : List Byte :=
  num 1 r.mode.num ++ num 2 r.base ++ num 2 r.size ++ num 4 r.post ++ num 1 r.priority ++ num 1 r.state.num ++
    num 4 r.occupancy ++ num 4 r.entries.length ++ group 6 (r.reference.map numStamp) ++
    group 6 (r.head.map numStamp) ++ numFlag r.markDue ++ num 1 r.sinceMark ++ numYesNo r.truncated ++
    numYesNo r.stopped ++ num 4 r.dropped ++ group 4 (r.trig.map (num 4)) ++ num 4 r.written ++ num 4 r.capacity

def serveRingStatus (q : Request) (s : State) : State :=
  if s.cst.ready = false then refuse q .notReady s else done q (s.cst.rings.toList.flatMap Ring.bytes) s

/-! ## Memory -/

/-- MEMORY_READY (R125; at any time during initialization when commanded, log 6). -/
def execMemoryReady (s : State) : Outcome := .next { s with cst := { s.cst with ready := true } }

/-- RING CONFIG (R127). -/
def execRingConfig (s : State) : Outcome := .next (serve codeRingConfig serveRingConfig s)

/-- RING START (R141). -/
def execRingStart (s : State) : Outcome := .next (serve codeRingStart serveRingStart s)

/-- RING STOP (R141). -/
def execRingStop (s : State) : Outcome := .next (serve codeRingStop serveRingStop s)

/-- RING READ (R146, R147). -/
def execRingRead (s : State) : Outcome := .next (serve codeRingRead serveRingRead s)

/-- RING STATUS (R128). -/
def execRingStatus (s : State) : Outcome := .next (serve codeRingStatus serveRingStatus s)

end Sys2Proof.Machine
end

