-- ==== Sys2Proof/Machine/Link.lean ====
section
/-! DEFINITION. The Station Link Unit (chapter 10): frames in and out, egress, alerts, identification, resets. -/

namespace Sys2Proof.Machine

/-! ## Frames (R188, R203, 11.1) -/

/-- The part address 02-4A-50-54-00-0n (R188). -/
def Slu.address (u : Slu) : LinkAddr := 0x024A50540000 ||| u.fixture.setWidth 48

abbrev kindReq : Nat := 1
abbrev kindRsp : Nat := 2
abbrev kindExport : Nat := 3
abbrev kindAlert : Nat := 4

/-- Zero bytes up to 46 bytes of Ethernet payload (R203). -/
def padded (l : List Byte) : List Byte := l ++ List.replicate (46 - l.length) 0

/-- A bench frame's Ethernet payload: the header, the payload, the padding (11.1). -/
def benchFrame (kind : Nat) (tag : BitVec 16) (code : Byte) (status : Nat) (p : List Byte) : List Byte :=
  padded (num 1 1 ++ num 1 kind ++ num 2 tag.toNat ++ [code] ++ num 1 status ++ num 2 p.length ++ p)

/-! ## Arrival (R188–R190, R192) -/

/-- The code byte of a bench header. -/
def frameCode (f : Frame) : Byte := f.payload.getD 4 0

/-- Whether a frame becomes an accepted request (R188). -/
def State.acceptsFrame (s : State) (f : Frame) : Bool :=
  f.checkGood && !s.pins.linkDown &&
    (f.dst == s.slu.address || (f.dst == Config.broadcast && frameCode f == codeIdentify)) &&
    f.etherType == Config.etherType && decide (8 ≤ f.payload.length) && byteAt f.payload 1 == kindReq &&
    decide (s.slu.owed.length < Config.owedPlaces)

/-- The ticket of an accepted request. -/
def Slu.ticketOf (u : Slu) (f : Frame) : Ticket :=
  { id := u.accepted, src := f.src, tag := BitVec.ofNat 16 (numAt f.payload 2 2), code := frameCode f }

/-- The acceptance of a request: it joins the owed list, and its source becomes the station address (R188, R192). -/
def Slu.acceptFrame (u : Slu) (f : Frame) : Slu :=
  { u with
    owed := u.owed ++ [{ ticket := u.ticketOf f, answered := false }]
    station := some f.src
    accepted := u.accepted + 1 }

/-- The payload length field of a bench header. -/
def frameLength (f : Frame) : Nat := numAt f.payload 6 2

/-- Whether the header is BAD: version, length or code (R189). -/
def frameBad (f : Frame) : Bool :=
  byteAt f.payload 0 != 1 || decide (1492 < frameLength f) || decide (f.payload.length - 8 < frameLength f) ||
    !lengthAllowed (frameCode f) (frameLength f)

/-- The header checks of an accepted request (R189). -/
def checkHeader (t : Ticket) (f : Frame) (s : State) : State :=
  if frameBad f then respond t .bad [] s
  else if Config.ingressPlaces ≤ s.slu.ingress.length then respond t .full [] s
  else
    let q : Request := { ticket := t, payload := (f.payload.drop 8).take (frameLength f) }
    { s with slu := { s.slu with ingress := s.slu.ingress ++ [q] } }

/-- A frame from the PHY: accepted, or ignored (R188). -/
def frameArrival (f : Frame) (s : State) : State :=
  if s.acceptsFrame f then checkHeader (s.slu.ticketOf f) f { s with slu := s.slu.acceptFrame f } else s

/-! ## Egress (R191, R193, R194, R197) -/

/-- The frame of a response (R191). -/
def Slu.responseFrame (u : Slu) (r : Response) : OutFrame :=
  { dst := r.ticket.src, src := u.address,
    payload := benchFrame kindRsp r.ticket.tag r.ticket.code r.status.num r.payload, answers := some r.ticket.id }

/-- The sources that are pending with a level above a bound, by number. -/
def Slu.pendingAbove (u : Slu) (level : Int) : List (Fin 16) :=
  (List.finRange 16).filter fun i => u.alerts[i].pending && decide (level < u.alerts[i].level)

/-- Sources ordered by level from highest to lowest, and by number among equal levels (R197, R198). -/
def Slu.ranked (u : Slu) (l : List (Fin 16)) : List (Fin 16) :=
  (List.range 8).reverse.flatMap fun v => l.filter fun i => u.alerts[i].level == v

/-- The list of an alert frame formed now (R197). -/
def Slu.announced (u : Slu) : List (Fin 16) := u.ranked (u.pendingAbove u.mask)

/-- A source's number and level. -/
def Slu.alertBytes (u : Slu) (i : Fin 16) : List Byte := num 1 (i.val + 1) ++ num 1 u.alerts[i].level

/-- The alert frame for a station address (R197), from the part address in force at its forming (log 39). -/
def Slu.alertFrame (u : Slu) (station : LinkAddr) : OutFrame :=
  { dst := station, src := u.address
    payload := benchFrame kindAlert u.alertCount 0 0
      (num 1 u.announced.length ++ u.announced.flatMap u.alertBytes)
    answers := none }

/-- The export frame of a ring for a station address (R194), from the part address in force at its forming (log 39). -/
def Slu.exportFrame (u : Slu) (station : LinkAddr) (p : List Byte) : OutFrame :=
  { dst := station, src := u.address, payload := benchFrame kindExport u.exportCount 0 0 p, answers := none }

/-- The due announcement taken by egress: an alert frame, or none where the list is empty (R197; log 20). -/
def Slu.announce (u : Slu) (station : LinkAddr) : Slu :=
  if u.announced.isEmpty then { u with due := false }
  else { u with due := false, alertCount := u.alertCount + 1, sending := some (u.alertFrame station) }

/-- An export frame formed by the Capture Store from the ring of R144 (R145, R194). -/
def formExport (station : LinkAddr) (s : State) : State :=
  match s.cst.exportRing with
  | some i =>
    let r := s.cst.rings[i]
    let s1 := setRing i r.afterExport s
    { s1 with
      slu :=
        { s1.slu with
          formed := some (s.slu.exportFrame station (r.exportPayload i))
          exportCount := s.slu.exportCount + 1 } }
  | none => s

/-- The link begins the export frame that is formed. -/
def Slu.beginExport (u : Slu) : Slu := { u with sending := u.formed, formed := none }

/-- The export step of egress: a frame formed, if none is, and begun if the link begins it (R193, R194; log 18). -/
def egressExport (begins : Bool) (station : LinkAddr) (s : State) : State :=
  let s1 := if s.slu.formed.isSome then s else formExport station s
  if begins ∧ s1.slu.formed.isSome then { s1 with slu := s1.slu.beginExport } else s1

/-- The choice of egress with the link free: the oldest response, a due announcement, an export frame (R193). -/
def egress (begins : Bool) (s : State) : State :=
  match s.slu.responses with
  | r :: rest =>
    if begins then { s with slu := { s.slu with responses := rest, sending := some (s.slu.responseFrame r) } } else s
  | [] =>
    match s.slu.station with
    | none => s
    | some a =>
      if s.slu.due then (if begins then { s with slu := s.slu.announce a } else s) else egressExport begins a s

/-- LINK_EGRESS: nothing is sent while a frame is being sent or the link is down (R193). -/
def linkEgress (begins : Bool) (s : State) : State :=
  if s.slu.sending = none ∧ s.pins.linkDown = false then egress begins s else s

/-- A frame has been sent: a response's request leaves the owed list (R191). -/
def Slu.sent (u : Slu) (f : OutFrame) : Slu :=
  { u with
    sending := none
    owed := u.owed.filter fun o => some o.ticket.id != f.answers }

def frameSent (s : State) : State :=
  match s.slu.sending with
  | some f => if s.pins.linkDown then s else { s with slu := s.slu.sent f }
  | none => s

/-! ## Alerts (R196, R198, R199) -/

/-- The levels and the mask ALERT CONFIG carries, or none where it answers RANGE (R196). -/
def alertLevelsAt (p : List Byte) : Option (List Nat × Nat) :=
  let levels := (List.range 16).map (byteAt p)
  if (levels.all fun l => decide (l ≤ 7)) ∧ byteAt p 16 ≤ 7 then some (levels, min 6 (byteAt p 16)) else none

/-- Levels and mask stored; an announcement becomes due for a pending source uncovered by a lower mask (R196). -/
def Slu.configureAlerts (u : Slu) (levels : List Nat) (m : Nat) : Slu :=
  let uncovers (i : Fin 16) : Bool :=
    u.alerts[i].pending && decide (m < levels.getD i.val 0) && decide (levels.getD i.val 0 ≤ u.mask)
  { u with
    alerts := mapEach (fun i x => { x with level := levels.getD i.val 0 }) u.alerts
    mask := m
    due := u.due || (decide (m < u.mask) && (List.finRange 16).any uncovers) }

def serveAlertConfig (q : Request) (s : State) : State :=
  match alertLevelsAt q.payload with
  | none => refuse q .range s
  | some (levels, m) =>
    done q (levels.flatMap (num 1) ++ num 1 m) { s with slu := s.slu.configureAlerts levels m }

/-- What ALERT NEXT carries: the highest pending source, its level, and how many are pending (R198). -/
def Slu.nextBytes (u : Slu) : List Byte :=
  let l := u.pendingAbove (-1)
  (match u.ranked l with
    | i :: _ => u.alertBytes i
    | [] => num 1 0 ++ num 1 0) ++ num 1 l.length

/-- The pending flags of the named sources cleared; source s is bit s − 1 (R199, R203). -/
def Slu.clearAlerts (u : Slu) (mask : Nat) : Slu :=
  { u with alerts := mapEach (fun i x => if mask.testBit i.val then { x with pending := false } else x) u.alerts }

/-- The set of sources pending. -/
def Slu.pendingSet (u : Slu) : Nat := setToNat (u.alerts.toList.map (·.pending))

def serveAlertClear (q : Request) (s : State) : State :=
  let u := s.slu.clearAlerts (numAt q.payload 0 2)
  done q (num 2 u.pendingSet) { s with slu := u }

/-! ## Identification and resets (R200–R202) -/

/-- What IDENTIFY carries (R200). -/
def identifyBytes (s : State) : List Byte :=
  num 2 Config.partCode ++ num 1 Config.revision ++ num 1 s.slu.fixture.toNat ++ numYesNo s.cst.ready ++
    num 1 s.tsq.run.num ++ num 1 s.dcu.mode.num ++ num 1 s.sce.tracked.num

/-- The requests whose response has not been made, but the one with this ticket, in acceptance order (R201). -/
def Slu.outstanding (u : Slu) (t : Ticket) : List Ticket :=
  (u.owed.filter fun o => !o.answered && o.ticket.id != t.id).map (·.ticket)

/-- The unit after soft reset: the values of R202, with the owed and response lists, a frame begun on the link and the
serial number kept (R201, R202). -/
def Slu.softReset (u : Slu) (straps : BitVec 4) : Slu :=
  { Slu.reset straps with owed := u.owed, responses := u.responses, sending := u.sending, accepted := u.accepted }

/-- Every block at its reset values; the waiting commands, the clock count, the pins and the readiness of capture memory
stay (R201 step 3, R149). -/
def resetBlocks (s : State) : State :=
  { s with
    tbu := Tbu.reset, hold := Vector.replicate 33 Hold.reset, stu := Stu.reset, rmu := Rmu.reset, btu := Btu.reset
    cle := Cle.reset, tsq := Tsq.reset, cst := { Cst.reset with ready := s.cst.ready, initClocks := s.cst.initClocks }
    sce := Sce.reset, dcu := Dcu.reset, slu := s.slu.softReset s.pins.straps }

/-- SOFT RESET: what is outstanding answered ABORTED in acceptance order, itself DONE, then every block reset (R201). -/
def serveSoftReset (q : Request) (s : State) : State :=
  resetBlocks
    (done q [] (forEach (s.slu.outstanding q.ticket) (fun t u => respond t .aborted [] u) s))

/-- Power-on reset: every block at its reset values, memory initialization begun, the fixture number read from the
straps; the waiting commands, the free values used and the outside levels stay (R202, R125). -/
def powerOn (straps : BitVec 4) (s : State) : State :=
  { State.reset with
    pending := s.pending, free := s.free, pins := { s.pins with straps := straps }, slu := Slu.reset straps }

/-! ## Commands -/

/-- POWER_ON_RESET (R202 and the reset rule of each chapter). -/
def execPowerOnReset (straps : BitVec 4) (s : State) : Outcome := .next (powerOn straps s)

/-- FRAME_ARRIVAL (R188–R190, R192). -/
def execFrameArrival (f : Frame) (s : State) : Outcome := .next (frameArrival f s)

/-- LINK_EGRESS (R191, R193, R194, R197). -/
def execLinkEgress (begins : Bool) (s : State) : Outcome := .next (linkEgress begins s)

/-- LINK_DOWN: the PHY reports the link down, or up again (R193). -/
def execLinkDown (down : Bool) (s : State) : Outcome := .next { s with pins := { s.pins with linkDown := down } }

/-- FRAME_SENT (R191, R193). -/
def execFrameSent (s : State) : Outcome := .next (frameSent s)

/-- IDENTIFY (R200). -/
def execIdentify (s : State) : Outcome := .next (serve codeIdentify (fun q t => done q (identifyBytes t) t) s)

/-- SOFT RESET (R201). -/
def execSoftReset (s : State) : Outcome := .next (serve codeSoftReset serveSoftReset s)

/-- ALERT CONFIG (R196). -/
def execAlertConfig (s : State) : Outcome := .next (serve codeAlertConfig serveAlertConfig s)

/-- ALERT NEXT (R198). -/
def execAlertNext (s : State) : Outcome := .next (serve codeAlertNext (fun q t => done q t.slu.nextBytes t) s)

/-- ALERT CLEAR (R199). -/
def execAlertClear (s : State) : Outcome := .next (serve codeAlertClear serveAlertClear s)

end Sys2Proof.Machine
end

