-- ==== Sys2Proof/Machine/Table.lean ====
section
/-! DEFINITION. The Match Table (5.2, 5.4–5.6): matching, the swap, writing and reading, hit counts, status. -/

namespace Sys2Proof.Machine

/-! ## Matching (R81, R82) -/

/-- Whether an entry matches a record (R81). -/
def MatchEntry.accepts (e : MatchEntry) (r : Record) : Bool :=
  e.valid && decide (e.sourceLow ≤ r.source) && decide (r.source ≤ e.sourceHigh) &&
    (e.kind.all fun k => k == r.kind) && (r.key &&& e.keyMask) == (e.keyValue &&& e.keyMask)

/-- The deciding entry's number, none for the default entry (R82). -/
def Bank.decides (b : Bank) (r : Record) : Option (Fin 64) := (List.finRange 64).find? fun i => b.entries[i].accepts r

/-- The deciding entry's action (R82, R83). -/
def Bank.actionOf (b : Bank) (d : Option (Fin 64)) : Action :=
  match d with
  | some i => b.entries[i].action
  | none => b.dflt

/-- The place of a deciding entry's hit count: the default entry's is last (R83). -/
def hitPlace (d : Option (Fin 64)) : Fin 65 :=
  match d with
  | some i => ⟨i.val, by omega⟩
  | none => 64

/-- A hit counted, saturating at 2^32−1 (R84). -/
def Cle.countHit (u : Cle) (d : Option (Fin 64)) : Cle :=
  { u with hits := put u.hits (hitPlace d) (min (2 ^ 32 - 1) (u.hits[hitPlace d] + 1)) }

/-! ## The swap (R96) -/

/-- SHADOW becomes ACTIVE, SHADOW keeps a copy of it, the hit counts and the commit are cleared. -/
def Cle.swap (u : Cle) : Cle := { u with active := u.shadow, hits := Vector.replicate 65 0, commit := none }

/-- A swap, announced by TABLE-SWAP (R96). -/
def swapBanks (s : State) : State := setAlert .tableSwap { s with cle := s.cle.swap }

/-! ## Writing (R89, R90) -/

/-- The refusals that follow the field checks of a write: BUSY, and STATE for a direct write (R89, R90). -/
def writeRefusal (direct : Bool) (s : State) : Option Status :=
  if s.cle.commit.isSome then some .busy
  else if direct = true ∧ s.tsq.run ≠ .idle then some .state
  else none

def Bank.setEntry (b : Bank) (i : Fin 64) (e : MatchEntry) : Bank := { b with entries := put b.entries i e }

def serveEntryWrite (q : Request) (s : State) : State :=
  match entryAt q.payload with
  | none => refuse q .range s
  | some (i, e) =>
    match writeRefusal false s with
    | some st => refuse q st s
    | none => done q [] { s with cle := { s.cle with shadow := s.cle.shadow.setEntry i e } }

def serveDefaultWrite (q : Request) (s : State) : State :=
  match actionAt q.payload 0 with
  | none => refuse q .range s
  | some a =>
    match writeRefusal false s with
    | some st => refuse q st s
    | none => done q [] { s with cle := { s.cle with shadow := { s.cle.shadow with dflt := a } } }

/-- A direct write of an entry: ACTIVE, with the hit count of the entry at 0 (R90). -/
def Cle.writeActive (u : Cle) (i : Fin 64) (e : MatchEntry) : Cle :=
  { u with active := u.active.setEntry i e, hits := put u.hits (hitPlace (some i)) 0 }

def serveEntryWriteDirect (q : Request) (s : State) : State :=
  match entryAt q.payload with
  | none => refuse q .range s
  | some (i, e) =>
    match writeRefusal true s with
    | some st => refuse q st s
    | none => done q [] { s with cle := s.cle.writeActive i e }

/-- A direct write of the default entry (R90). -/
def Cle.writeActiveDefault (u : Cle) (a : Action) : Cle :=
  { u with active := { u.active with dflt := a }, hits := put u.hits (hitPlace none) 0 }

def serveDefaultWriteDirect (q : Request) (s : State) : State :=
  match actionAt q.payload 0 with
  | none => refuse q .range s
  | some a =>
    match writeRefusal true s with
    | some st => refuse q st s
    | none => done q [] { s with cle := s.cle.writeActiveDefault a }

/-! ## Reading (R91) -/

/-- What ENTRY READ carries of an entry, or of the default entry as index 255 (11.2; log 26). -/
def Bank.entryBytes (b : Bank) (d : Option (Fin 64)) : List Byte :=
  match d with
  | some i => b.entries[i].bytes i.val
  | none => b.dflt.defaultBytes

/-- The bank ENTRY READ names, ACTIVE 0 or SHADOW 1, and whether it is ACTIVE. -/
def Cle.bankAt (u : Cle) (p : List Byte) : Option (Bank × Bool) :=
  match byteAt p 0 with
  | 0 => some (u.active, true)
  | 1 => some (u.shadow, false)
  | _ => none

def serveEntryRead (q : Request) (s : State) : State :=
  match s.cle.bankAt q.payload, finOrNoneAt 64 q.payload 1 with
  | some (b, isActive), some d =>
    done q (b.entryBytes d ++ (if isActive then num 4 s.cle.hits[hitPlace d] else [])) s
  | _, _ => refuse q .range s

/-! ## Commits (R92, R93, R97) -/

/-- The commit point COMMIT carries (11.2). -/
def commitAt (p : List Byte) : Option CommitPoint :=
  match byteAt p 0 with
  | 0 => some .nextRecord
  | 1 => some .nextArm
  | 2 => (toFin 16 (byteAt p 1)).map .onClass
  | _ => none

def serveCommit (q : Request) (s : State) : State :=
  match commitAt q.payload with
  | none => refuse q .range s
  | some c =>
    if s.cle.commit.isSome then refuse q .busy s
    else
      let s1 := { s with cle := { s.cle with commit := some c } }
      done q [] (if c = .nextRecord ∧ s.cle.queue = [] then swapBanks s1 else s1)

def serveCommitCancel (q : Request) (s : State) : State :=
  if s.cle.commit.isSome then done q [] { s with cle := { s.cle with commit := none } } else refuse q .state s

/-! ## Hit counts and status (R98, R99) -/

def Cle.hitBytes (u : Cle) : List Byte := u.hits.toList.flatMap (num 4)

def serveHitsClear (q : Request) (s : State) : State :=
  done q [] { s with cle := { s.cle with hits := Vector.replicate 65 0 } }

/-- The pending commit in TABLE STATUS: the point or 255, and the class e for ON-CLASS (R99; log 10). -/
def commitBytes (c : Option CommitPoint) : List Byte :=
  match c with
  | none => num 1 255 ++ group 1 none
  | some .nextRecord => num 1 0 ++ group 1 none
  | some .nextArm => num 1 1 ++ group 1 none
  | some (.onClass e) => num 1 2 ++ group 1 (some (num 1 e.val))

/-- What TABLE STATUS carries of a source (R99). -/
def sourceBytes (s : State) (i : Fin 33) : List Byte :=
  let h := s.hold[i]
  num 1 h.fifo.length ++ num 1 h.lost ++ (if i = srcScan ∨ i = srcDrive then num 1 h.waiting.length else [])

def tableStatusBytes (s : State) : List Byte :=
  num 1 s.cle.queue.length ++ num 1 s.cle.position.val ++ commitBytes s.cle.commit ++
    (List.finRange 33).flatMap (sourceBytes s)

/-! ## Commands -/

/-- ENTRY WRITE (R89). -/
def execEntryWrite (s : State) : Outcome := .next (serve codeEntryWrite serveEntryWrite s)

/-- DEFAULT WRITE (R89). -/
def execDefaultWrite (s : State) : Outcome := .next (serve codeDefaultWrite serveDefaultWrite s)

/-- ENTRY WRITE DIRECT (R90). -/
def execEntryWriteDirect (s : State) : Outcome := .next (serve codeEntryWriteDirect serveEntryWriteDirect s)

/-- DEFAULT WRITE DIRECT (R90). -/
def execDefaultWriteDirect (s : State) : Outcome := .next (serve codeDefaultWriteDirect serveDefaultWriteDirect s)

/-- ENTRY READ (R91). -/
def execEntryRead (s : State) : Outcome := .next (serve codeEntryRead serveEntryRead s)

/-- COMMIT (R92, R93). -/
def execCommit (s : State) : Outcome := .next (serve codeCommit serveCommit s)

/-- COMMIT CANCEL (R97). -/
def execCommitCancel (s : State) : Outcome := .next (serve codeCommitCancel serveCommitCancel s)

/-- HITS READ (R98). -/
def execHitsRead (s : State) : Outcome := .next (serve codeHitsRead (fun q t => done q t.cle.hitBytes t) s)

/-- HITS CLEAR (R98). -/
def execHitsClear (s : State) : Outcome := .next (serve codeHitsClear serveHitsClear s)

/-- TABLE STATUS (R99). -/
def execTableStatus (s : State) : Outcome :=
  .next (serve codeTableStatus (fun q t => done q (tableStatusBytes t) t) s)

end Sys2Proof.Machine
end

