-- ==== Sys2Proof/Machine/Sequencer.lean ====
section
/-! DEFINITION. The Trigger Sequencer (chapter 6): counters, branches, the trigger sequence, the tick, requests. -/

namespace Sys2Proof.Machine

/-! ## Counters (R105, R110) -/

def Tsq.setCounter (u : Tsq) (c : Fin 4) (x : Counter) : Tsq := { u with counters := put u.counters c x }

/-- Whether a counter counts at a source: it is running with that source. -/
def Counter.counts (x : Counter) (src : CounterSource) : Bool := x.running && x.source == src

/-- Every running counter of a source increments, modulo 2^32 (R109 step 1, R112). -/
def Tsq.increment (u : Tsq) (src : CounterSource) : Tsq :=
  { u with counters := mapAll (fun x => if x.counts src then { x with count := x.count + 1 } else x) u.counters }

/-- The counters whose increment matches, in counter order: the count after it equals the compare (R110). -/
def Tsq.matching (u : Tsq) (src : CounterSource) : List (Fin 4) :=
  (List.finRange 4).filter fun c => u.counters[c].counts src && u.counters[c].count + 1 == u.counters[c].compare

/-- A noted match completed: count 0, and a staged compare applied (R110). -/
def Counter.complete (x : Counter) : Counter :=
  { x with count := 0, compare := x.staged.getD x.compare, staged := none }

def completeMatch (c : Fin 4) (s : State) : State :=
  { s with tsq := s.tsq.setCounter c s.tsq.counters[c].complete }

/-- The match class of a counter, 16 + c (6.2). -/
def matchClass (c : Fin 4) : Fin 20 := ⟨16 + c.val, by omega⟩

/-- An event class as a class compared. -/
def eventClass (e : Fin 16) : Fin 20 := ⟨e.val, by omega⟩

/-- Every counter stops, keeping its count. -/
def Tsq.stopCounters (u : Tsq) : Tsq := { u with counters := mapAll (fun x => { x with running := false }) u.counters }

/-! ## The trigger sequence (R119, R120) -/

/-- The Capture Store's handling of a TRIG request: every RUNNING WINDOW ring (R136). -/
def Cst.trigger (c : Cst) (at_ : Stamp) (cause : Cause) : Cst :=
  { c with
    rings := mapAll (fun r => if r.mode = .window ∧ r.state = .running then r.trigger at_ cause else r) c.rings }

/-- The post set: the rings that took the TRIG entry, marked FROZEN where they froze at once (R120). -/
def Cst.postSet (c : Cst) : Vector (Option Bool) 4 :=
  mapEach
    (fun i _ =>
      let r := c.rings[i]
      if r.mode = .window ∧ r.state = .running then some (r.post == 0) else none)
    (Vector.replicate 4 none)

/-- Every ring of the post set is marked FROZEN. -/
def Tsq.allFrozen (u : Tsq) : Bool := u.post.toList.all fun p => p != some false

/-- DONE, with its alert, when every ring of the post set is FROZEN (R120, R121). -/
def finishRun (s : State) : State :=
  if s.tsq.allFrozen then setAlert .done { s with tsq := { s.tsq with run := .done } } else s

/-- The trigger sequence (R120). -/
def triggerRun (at_ : Stamp) (cause : Cause) (s : State) : State :=
  finishRun
    (setAlert .triggered
      { s with
        tsq :=
          { s.tsq.stopCounters with
            stamp := some at_, cause := some cause, run := .triggered, post := s.cst.postSet }
        cst := s.cst.trigger at_ cause })

/-- The Capture Store's notice that a ring of the post set has become FROZEN (R121). -/
def frozenNotice (i : Fin 4) (s : State) : State :=
  let s1 := { s with tsq := { s.tsq with post := put s.tsq.post i (s.tsq.post[i].map fun _ => true) } }
  if s.tsq.run = .triggered then finishRun s1 else s1

/-! ## Branches (R103–R108) -/

/-- One branch action (6.3). -/
def branchAction (a : SeqAction) (s : State) : State :=
  match a with
  | .startCounter c => { s with tsq := s.tsq.setCounter c { s.tsq.counters[c] with running := true } }
  | .stopCounter c => { s with tsq := s.tsq.setCounter c { s.tsq.counters[c] with running := false } }
  | .clearCounter c => { s with tsq := s.tsq.setCounter c { s.tsq.counters[c] with count := 0 } }
  | .injectScan n => injectScan n s
  | .pressLine d w => sequencerPress d w s
  | .enterSafe => takeSafeRequest none s
  | .seqAlert => setAlert .seqAlert s

/-- A branch taken: its actions in order, then its next (R104). -/
def takeBranch (b : Branch) (cause : Cause) (at_ : Stamp) (s : State) : State :=
  let s1 := forEach b.actions branchAction s
  match b.next with
  | .level l => { s1 with tsq := { s1.tsq with level := l } }
  | .stay => s1
  | .trigger => triggerRun at_ cause s1

/-- Whether a branch matches a class (R103). -/
def Branch.accepts (b : Branch) (k : Fin 20) : Bool := b.enabled && b.cls == k

/-- A class compared with the current level: A before B, at most one taken (R103). -/
def compareClass (k : Fin 20) (at_ : Stamp) (s : State) : State :=
  let l := s.tsq.levels[s.tsq.level]
  if l.a.accepts k then takeBranch l.a { level := s.tsq.level, branch := some .a, cls := some k } at_ s
  else if l.b.accepts k then takeBranch l.b { level := s.tsq.level, branch := some .b, cls := some k } at_ s
  else s

/-! ## Deliveries and ticks (R101, R109–R112) -/

/-- A noted match completed, and its class compared if the run state is still ARMED. -/
def handleMatch (at_ : Stamp) (c : Fin 4) (s : State) : State :=
  let s1 := completeMatch c s
  if s1.tsq.run = .armed then compareClass (matchClass c) at_ s1 else s1

/-- A class delivered with the stamp of its record (R101, R109). -/
def deliverClass (e : Fin 16) (at_ : Stamp) (s : State) : State :=
  if s.tsq.run = .armed then
    let noted := s.tsq.matching (.cls e)
    forEach noted (handleMatch at_) (compareClass (eventClass e) at_ { s with tsq := s.tsq.increment (.cls e) })
  else s

/-- The 1 µs tick at the sequencer (R112). -/
def sequencerTick (s : State) : State :=
  if s.tsq.run = .armed then
    forEach (s.tsq.matching .tick) (handleMatch s.now) { s with tsq := s.tsq.increment .tick }
  else s

/-- The tick the divider has issued is taken (R14, R112). -/
def tick (s : State) : State :=
  if s.tbu.tickDue then sequencerTick { s with tbu := { s.tbu with tickDue := false } } else s

/-! ## Arming and stopping (R94, R116–R118, R139, R140) -/

/-- The sequencer armed: steps 2, 3, 4, 6 and 7 of R116. -/
def Tsq.armed (u : Tsq) : Tsq :=
  { u with
    run := .armed, level := 0, stamp := none, cause := none, post := Vector.replicate 4 none
    counters :=
      mapAll (fun x => { x with count := 0, staged := none, running := x.runAtArm }) u.counters }

def serveArm (q : Request) (s : State) : State :=
  if s.tsq.run = .idle ∨ s.tsq.run = .done then
    let s1 := if s.cle.commit = some .nextArm then swapBanks s else s
    done q [] { s1 with tsq := s1.tsq.armed, cst := { s1.cst with rings := mapAll Ring.arm s1.cst.rings } }
  else refuse q .state s

/-- STOP by the run state (R117, R140). -/
def stopRun (s : State) : State :=
  match s.tsq.run with
  | .armed =>
    { s with
      tsq := { s.tsq.stopCounters with run := .idle }
      cst := { s.cst with rings := mapAll (Ring.halt false) s.cst.rings } }
  | .triggered =>
    { s with
      tsq := { s.tsq with run := .idle }
      cst := { s.cst with rings := mapAll (Ring.halt true) s.cst.rings } }
  | .done => { s with tsq := { s.tsq with run := .idle } }
  | .idle => s

def serveTriggerNow (q : Request) (s : State) : State :=
  if s.tsq.run = .armed then
    done q [] (triggerRun s.now { level := s.tsq.level, branch := none, cls := none } s)
  else refuse q .state s

/-! ## Settings (R102, R113, R114) -/

/-- The level and branches LEVEL WRITE carries, or none where R102 answers RANGE. -/
def levelAt (p : List Byte) : Option (Fin 8 × Level) := do
  let l ← toFin 8 (byteAt p 0)
  let a ← branchAt p 1
  let b ← branchAt p 13
  return (l, { a, b })

def serveLevelWrite (q : Request) (s : State) : State :=
  match levelAt q.payload with
  | none => refuse q .range s
  | some (l, x) =>
    if s.tsq.busy then refuse q .state s
    else done q [] { s with tsq := { s.tsq with levels := put s.tsq.levels l x } }

def Level.bytes (l : Level) : List Byte := l.a.bytes ++ l.b.bytes

def serveLevelRead (q : Request) (s : State) : State :=
  match toFin 8 (byteAt q.payload 0) with
  | some l => done q s.tsq.levels[l].bytes s
  | none => refuse q .range s

/-- A counter source: a class 0–15, or 16 for TICK (11.2). -/
def counterSourceAt (p : List Byte) (i : Nat) : Option CounterSource :=
  if byteAt p i = 16 then some .tick else (toFin 16 (byteAt p i)).map .cls

def CounterSource.num : CounterSource → Nat
  | .cls e => e.val
  | .tick => 16

def writeModeAt (p : List Byte) (i : Nat) : Option WriteMode :=
  match byteAt p i with
  | 0 => some .direct
  | 1 => some .staged
  | _ => none

def WriteMode.num : WriteMode → Nat
  | .direct => 0
  | .staged => 1

/-- A counter with the settings COUNTER CONFIG carries; DIRECT discards a staged compare (R113). -/
def counterConfigAt (p : List Byte) (x : Counter) : Option Counter := do
  let source ← counterSourceAt p 1
  let runAtArm ← flagAt p 2
  let writeMode ← writeModeAt p 3
  return { x with source, runAtArm, writeMode, staged := if writeMode = .direct then none else x.staged }

def serveCounterConfig (q : Request) (s : State) : State :=
  match toFin 4 (byteAt q.payload 0) with
  | none => refuse q .range s
  | some c =>
    match counterConfigAt q.payload s.tsq.counters[c] with
    | none => refuse q .range s
    | some x => if s.tsq.busy then refuse q .state s else done q [] { s with tsq := s.tsq.setCounter c x }

/-- A compare written (R114). -/
def Counter.writeCompare (x : Counter) (v : Word) : Counter :=
  if x.running = true ∧ x.writeMode = .staged then { x with staged := some v } else { x with compare := v, staged := none }

/-- A compare and a staged compare, or NONE, as COMPARE WRITE and SEQUENCER STATUS carry them. -/
def Counter.compareBytes (x : Counter) : List Byte :=
  num 4 x.compare.toNat ++ group 4 (x.staged.map fun v => num 4 v.toNat)

def serveCompareWrite (q : Request) (s : State) : State :=
  match toFin 4 (byteAt q.payload 0) with
  | none => refuse q .range s
  | some c =>
    let v := BitVec.ofNat 32 (numAt q.payload 1 4)
    if v = 0 then refuse q .range s
    else
      let x := s.tsq.counters[c].writeCompare v
      done q x.compareBytes { s with tsq := s.tsq.setCounter c x }

/-! ## Status (R123) -/

/-- A counter in SEQUENCER STATUS; run-at-arm and running read 0 for yes, by the lists of 6.5 (R203; log 8). -/
def Counter.bytes (x : Counter) : List Byte :=
  num 1 x.source.num ++ numYesNo x.runAtArm ++ num 1 x.writeMode.num ++ numYesNo x.running ++ num 4 x.count.toNat ++
    x.compareBytes

def Cause.bytes (c : Cause) : List Byte :=
  num 1 c.level.val ++ numOrNone (c.branch.map BranchId.num) ++ numOrNone (c.cls.map Fin.val)

/-- What SEQUENCER STATUS carries: the post set as a set of its rings and a set of those marked FROZEN (R123; log 10). -/
def Tsq.bytes (u : Tsq) : List Byte :=
  num 1 u.run.num ++ num 1 u.level.val ++ group 6 (u.stamp.map numStamp) ++ group 3 (u.cause.map Cause.bytes) ++
    num 1 (setToNat (u.post.toList.map Option.isSome)) ++ num 1 (setToNat (u.post.toList.map fun p => p == some true)) ++
    u.counters.toList.flatMap Counter.bytes

/-! ## Commands -/

/-- TICK (R14, R112). -/
def execTick (s : State) : Outcome := .next (tick s)

/-- ARM (R94, R116, R139). -/
def execArm (s : State) : Outcome := .next (serve codeArm serveArm s)

/-- STOP (R117, R140). -/
def execStop (s : State) : Outcome := .next (serve codeStop (fun q t => done q [] (stopRun t)) s)

/-- TRIGGER NOW (R118, R120). -/
def execTriggerNow (s : State) : Outcome := .next (serve codeTriggerNow serveTriggerNow s)

/-- LEVEL WRITE (R102). -/
def execLevelWrite (s : State) : Outcome := .next (serve codeLevelWrite serveLevelWrite s)

/-- LEVEL READ (R123). -/
def execLevelRead (s : State) : Outcome := .next (serve codeLevelRead serveLevelRead s)

/-- COUNTER CONFIG (R113). -/
def execCounterConfig (s : State) : Outcome := .next (serve codeCounterConfig serveCounterConfig s)

/-- COMPARE WRITE (R114, R115). -/
def execCompareWrite (s : State) : Outcome := .next (serve codeCompareWrite serveCompareWrite s)

/-- SEQUENCER STATUS (R123). -/
def execSequencerStatus (s : State) : Outcome :=
  .next (serve codeSequencerStatus (fun q t => done q t.tsq.bytes t) s)

end Sys2Proof.Machine
end

