-- ==== Sys2Proof/Machine/Match.lean ====
section
/-! DEFINITION. Admission to the record queue (5.1) and the classification of a record (5.3, 5.5). -/

namespace Sys2Proof.Machine

/-! ## Admission (R78, R79) -/

/-- The sources in the order the arbiter searches them, from the admission position plus 1. -/
def Cle.searchOrder (u : Cle) : List (Fin 33) :=
  (List.range 33).map fun i => ⟨(u.position.val + 1 + i) % 33, by omega⟩

/-- The source served next: the first whose holding FIFO holds a record, while the queue has room (R79). -/
def State.admits (s : State) : Option (Fin 33) :=
  if s.cle.queue.length < Config.queuePlaces then s.cle.searchOrder.find? fun i => !s.hold[i].fifo.isEmpty else none

/-- One admission (R79); a waiting guard record takes the freed place (R9). -/
def admitNext (s : State) : State :=
  match s.admits with
  | some i =>
    { s with
      cle := { s.cle with queue := s.cle.queue ++ s.hold[i].fifo.take 1, position := i }
      hold := put s.hold i s.hold[i].release }
  | none => s

/-! ## The actions of a deciding entry (R84–R88) -/

/-- A capture offer to a ring (R85, R134). -/
def offer (i : Fin 4) (r : Record) (strip : Bool) (s : State) : State :=
  let g := s.cst.rings[i]
  let e := ordinaryEntry r strip
  match g.state with
  | .running | .post =>
    let o := g.offerWindow r.stamp e
    if o.2 then frozenNotice i (setRing i o.1 s) else setRing i o.1 s
  | .streaming =>
    let s1 := setRing i (g.offerStream r.stamp e) s
    if g.beginsGap r.stamp e then setAlert .ringGap s1 else s1
  | _ => s

/-- Step 2: an entry is offered to the deciding entry's ring. -/
def offerStage (a : Action) (r : Record) (s : State) : State :=
  match a.ring with
  | some i => offer i r a.strip s
  | none => s

/-- Step 3: the verdict on a guard record goes to its block (R86). -/
def verdictStage (a : Action) (r : Record) (s : State) : State :=
  match r.kind with
  | .scanStart => scanVerdict a.refuse s
  | .driveStart => driveVerdict a.refuse r.key s
  | _ => s

/-- Step 4: the MATCH-ALERT source (R87). -/
def alertStage (a : Action) (s : State) : State :=
  match a.alert with
  | some n => setAlert (.matchAlert n) s
  | none => s

/-- Step 5: the event class goes to the sequencer (R88). -/
def classStage (a : Action) (r : Record) (s : State) : State :=
  match a.cls with
  | some e => deliverClass e r.stamp s
  | none => s

/-- A pending NEXT-RECORD commit is made before the record is compared (R93). -/
def nextRecordCommit (s : State) : State := if s.cle.commit = some .nextRecord then swapBanks s else s

/-- A pending ON-CLASS commit is judged on the class of the deciding entry (R95). -/
def onClassCommit (a : Action) (s : State) : State :=
  match a.cls with
  | some e => if s.cle.commit = some (.onClass e) then swapBanks s else s
  | none => s

/-- The deciding entry's actions, in the order of R84, and the judgement of an ON-CLASS commit. -/
def performActions (a : Action) (r : Record) (s : State) : State :=
  onClassCommit a (classStage a r (alertStage a (verdictStage a r (offerStage a r s))))

/-- A record classified by the ACTIVE bank (R80, R82, R84). -/
def classify (r : Record) (s : State) : State :=
  let d := s.cle.active.decides r
  performActions (s.cle.active.actionOf d) r { s with cle := s.cle.countHit d }

/-- The classifier takes the oldest record of the queue (R80, R93). -/
def classifyNext (s : State) : State :=
  match s.cle.queue with
  | r :: rest => classify r (nextRecordCommit { s with cle := { s.cle with queue := rest } })
  | [] => s

/-! ## Commands -/

/-- ADMISSION (R79). -/
def execAdmission (s : State) : Outcome := .next (admitNext s)

/-- CLASSIFY_RECORD (R80–R88, R93, R95). -/
def execClassifyRecord (s : State) : Outcome := .next (classifyNext s)

end Sys2Proof.Machine
end

