-- ==== Sys2Proof/Machine/Clock.lean ====
section
/-! DEFINITION. The passing of one core clock, and the events that fall due by the clock (R14; log 1, 2). -/

namespace Sys2Proof.Machine

/-! ## One core clock at each block -/

/-- A PENDING filter counts the clock (R21, R59). -/
def Filter.tickClock : Filter → Filter
  | .steady => .steady
  | .pending t0 n => .pending t0 (n + 1)

def Lane.tickClock (l : Lane) : Lane := { l with filter := l.filter.tickClock }

/-- A running episode counts the clock (R33). -/
def Decoder.tickClock (d : Decoder) : Decoder :=
  { d with episode := d.episode.map fun e => { e with count := e.count + 1 } }

/-- The lanes, the decoder and a running check count the clock; the check counts with it the edges BREF and RCLK give in
one core clock (R39; log 24). -/
def Stu.tickClock (u : Stu) (bref rclk : Nat) : Stu :=
  { lanes := mapAll Lane.tickClock u.lanes, decoder := u.decoder.tickClock, check := u.check.count 1 bref rclk }

/-- A blank hold counts down, not below 0 (R53). -/
def Channel.tickClock (x : Channel) : Channel := { x with blankHold := x.blankHold - 1 }

def Rmu.tickClock (u : Rmu) : Rmu :=
  { u with
    channels := mapAll Channel.tickClock u.channels
    converting := u.converting.map fun k => { k with elapsed := k.elapsed + 1 } }

def LineFilter.tickClock (f : LineFilter) : LineFilter := { f with filter := f.filter.tickClock }

/-- The filters count, and the stuck timer counts while the accepted clock is low (R59, R66). -/
def Bus.tickClock (b : Bus) : Bus :=
  { b with
    clockLine := b.clockLine.tickClock
    dataLine := b.dataLine.tickClock
    stuckTimer := if b.enabled && !b.clockLine.accepted then b.stuckTimer + 1 else b.stuckTimer }

/-- The tick counter of an enabled receiver issues a sample tick at its D-th clock, and the idle timer counts (R70,
R74). -/
def Console.tickClock (c : Console) : Console :=
  if c.enabled then
    let last := decide (c.divisor ≤ c.tickCounter)
    { c with
      tickCounter := if last then 1 else c.tickCounter + 1
      tickDue := c.tickDue || last
      idleTimer := c.idleTimer.map (· + 1) }
  else c

def Btu.tickClock (u : Btu) : Btu :=
  { buses := mapAll Bus.tickClock u.buses, consoles := mapAll Console.tickClock u.consoles }

/-- Initialization goes on until memory ready (R125). -/
def Cst.tickClock (c : Cst) : Cst := { c with initClocks := if c.ready then c.initClocks else c.initClocks + 1 }

/-- One core clock passes. -/
def coreClock (s : State) : State :=
  { s with
    clock := s.clock + 1
    tbu := s.tbu.advance
    stu := s.stu.tickClock s.pins.brefEdges.toNat s.pins.rclkEdges.toNat
    rmu := s.rmu.tickClock
    btu := s.btu.tickClock
    cst := s.cst.tickClock
    sce := s.sce.tickClock s.pins.rclk s.pins.tdo }

/-! ## What falls due at a clock -/

/-- The command if it is due. -/
def dueIf (c : Bool) (i : Instr) : List Instr := if c then [i] else []

def laneDue (s : State) (i : Fin 16) : List Instr :=
  dueIf s.stu.lanes[i].acceptDue.isSome (.laneAcceptance i) ++ dueIf (s.glitchDue i).isSome (.glitch i s.pins.lanes[i]) ++
    dueIf (s.departureDue i) (.laneDeparture i s.pins.lanes[i]) ++
    dueIf (s.bypassDue i) (.bypassAcceptedChange i s.pins.lanes[i])

/-- A clock edge due on a segment, as the row that takes it. -/
def busClockDue (s : State) (g : Fin 2) : List Instr :=
  let b := s.btu.buses[g]
  if (s.busChangeDue g .clock).isSome then
    if b.clockLine.accepted then (if b.takesBit ∧ 8 ≤ b.bitCount then [.busByteEnd g] else [.bitTaken g])
    else if b.stuck then [.stuckEpisodeEnd g]
    else [.bitTaken g]
  else []

/-- A data change due on a segment, as the row that takes it. -/
def busDataDue (s : State) (g : Fin 2) : List Instr :=
  let b := s.btu.buses[g]
  if (s.busChangeDue g .data).isSome then
    if b.clockLine.accepted = false then [.busLineDeparture g .data (s.busPin g .data)]
    else if b.dataLine.accepted then [.busStart g]
    else [.busStop g]
  else []

/-- A departure or its return on a bus line. -/
def busSampleDue (s : State) (g : Fin 2) (l : BusLine) : List Instr :=
  dueIf (s.btu.buses[g].enabled && (s.busChangeDue g l).isNone && s.filterSample g l != s.btu.buses[g].line l)
    (.busLineDeparture g l (s.busPin g l))

def busDue (s : State) (g : Fin 2) : List Instr :=
  busClockDue s g ++ busDataDue s g ++ busSampleDue s g .clock ++ busSampleDue s g .data ++
    dueIf s.btu.buses[g].stuckDue (.stuckTimeout g)

def consoleDue (s : State) (r : Fin 2) : List Instr :=
  let c := s.btu.consoles[r]
  (if c.enabled && c.tickDue then
    match c.tickEffect s.pins.con[r] with
    | .move => [.sampleTick r s.pins.con[r]]
    | .byte _ _ => [.consoleByte r s.pins.con[r]]
    | .break_ => [.consoleBreak r]
  else []) ++ dueIf c.idleDue (.idleClose r)

def lineDue (s : State) (d : Fin 8) : List Instr :=
  match s.dcu.lines[d].state with
  | .pressing _ e => dueIf (decide (e ≤ s.clock)) (.pressEnd d)
  | .deferred _ e => dueIf (decide (e ≤ s.clock)) (.deferralExpiry d)
  | _ => []

def conversionDue (s : State) : List Instr :=
  match s.rmu.conversionDue with
  | some c => [.conversionEnd s.pins.rails[c]]
  | none => []

def checkDue (s : State) : List Instr :=
  dueIf s.stu.check.over (.clockCheckEnd s.pins.brefEdges s.pins.rclkEdges)

def scanDue (s : State) : List Instr :=
  dueIf s.sce.completeDue .scanComplete ++ dueIf s.sce.abortDue .abortPauseReached ++
    dueIf s.sce.timeoutDue .returnClockTimeout ++ dueIf s.sce.fallDue (.tckClock s.pins.rclk s.pins.tdo)

/-- The events due at this clock, in the order the model takes them (log 2). -/
def dueEvents (s : State) : List Instr :=
  (List.finRange 16).flatMap (laneDue s) ++ (List.finRange 2).flatMap (busDue s) ++ checkDue s ++ conversionDue s ++
    (List.finRange 8).flatMap (lineDue s) ++
    (List.finRange 8).flatMap (fun c => dueIf (s.rmu.blankOver c) (.blankHoldExpiry c)) ++
    dueIf s.stu.decoder.expiryDue .episodeExpiry ++ scanDue s ++ dueIf s.tbu.tickDue .tick ++
    (List.finRange 2).flatMap (consoleDue s) ++
    dueIf (!s.cst.ready && decide (Config.initBound ≤ s.cst.initClocks)) .memoryReady

end Sys2Proof.Machine
end

