-- ==== Sys2Proof/Machine/Dispatch.lean ====
section
/-! DEFINITION. The dispatch: one arm per command, each one call of the command's meaning. -/

namespace Sys2Proof.Machine

def exec (i : Instr) (s : State) : Host.Outcome State Fault Refusal :=
  match i with
  | .powerOnReset straps => Sys2Proof.Machine.execPowerOnReset straps s
  | .memoryReady => Sys2Proof.Machine.execMemoryReady s
  | .tick => Sys2Proof.Machine.execTick s
  | .laneDeparture lane pin => Sys2Proof.Machine.execLaneDeparture lane pin s
  | .laneAcceptance lane => Sys2Proof.Machine.execLaneAcceptance lane s
  | .glitch lane pin => Sys2Proof.Machine.execGlitch lane pin s
  | .bypassAcceptedChange lane pin => Sys2Proof.Machine.execBypassAcceptedChange lane pin s
  | .episodeExpiry => Sys2Proof.Machine.execEpisodeExpiry s
  | .clockCheckEnd bref rclk => Sys2Proof.Machine.execClockCheckEnd bref rclk s
  | .conversionEnd code => Sys2Proof.Machine.execConversionEnd code s
  | .blankHoldExpiry channel => Sys2Proof.Machine.execBlankHoldExpiry channel s
  | .busStart segment => Sys2Proof.Machine.execBusStart segment s
  | .busStop segment => Sys2Proof.Machine.execBusStop segment s
  | .busByteEnd segment => Sys2Proof.Machine.execBusByteEnd segment s
  | .stuckTimeout segment => Sys2Proof.Machine.execStuckTimeout segment s
  | .stuckEpisodeEnd segment => Sys2Proof.Machine.execStuckEpisodeEnd segment s
  | .consoleByte receiver pin => Sys2Proof.Machine.execConsoleByte receiver pin s
  | .consoleBreak receiver => Sys2Proof.Machine.execConsoleBreak receiver s
  | .idleClose receiver => Sys2Proof.Machine.execIdleClose receiver s
  | .admission => Sys2Proof.Machine.execAdmission s
  | .classifyRecord => Sys2Proof.Machine.execClassifyRecord s
  | .scanComplete => Sys2Proof.Machine.execScanComplete s
  | .returnClockTimeout => Sys2Proof.Machine.execReturnClockTimeout s
  | .abortPauseReached => Sys2Proof.Machine.execAbortPauseReached s
  | .pressEnd line => Sys2Proof.Machine.execPressEnd line s
  | .deferralExpiry line => Sys2Proof.Machine.execDeferralExpiry line s
  | .frameArrival frame => Sys2Proof.Machine.execFrameArrival frame s
  | .linkEgress begins => Sys2Proof.Machine.execLinkEgress begins s
  | .linkDown down => Sys2Proof.Machine.execLinkDown down s
  | .identify => Sys2Proof.Machine.execIdentify s
  | .softReset => Sys2Proof.Machine.execSoftReset s
  | .alertConfig => Sys2Proof.Machine.execAlertConfig s
  | .alertNext => Sys2Proof.Machine.execAlertNext s
  | .alertClear => Sys2Proof.Machine.execAlertClear s
  | .timeRead => Sys2Proof.Machine.execTimeRead s
  | .timeTrim => Sys2Proof.Machine.execTimeTrim s
  | .timeSetImmediate => Sys2Proof.Machine.execTimeSetImmediate s
  | .timeSetArmed => Sys2Proof.Machine.execTimeSetArmed s
  | .timeSetCancel => Sys2Proof.Machine.execTimeSetCancel s
  | .laneConfig => Sys2Proof.Machine.execLaneConfig s
  | .laneStatus => Sys2Proof.Machine.execLaneStatus s
  | .glitchClear => Sys2Proof.Machine.execGlitchClear s
  | .decodeConfig => Sys2Proof.Machine.execDecodeConfig s
  | .decodeLoad => Sys2Proof.Machine.execDecodeLoad s
  | .decodeRead => Sys2Proof.Machine.execDecodeRead s
  | .clockCheck => Sys2Proof.Machine.execClockCheck s
  | .railConfig => Sys2Proof.Machine.execRailConfig s
  | .tripClear => Sys2Proof.Machine.execTripClear s
  | .railRead => Sys2Proof.Machine.execRailRead s
  | .busConfig => Sys2Proof.Machine.execBusConfig s
  | .busStatus => Sys2Proof.Machine.execBusStatus s
  | .consoleConfig => Sys2Proof.Machine.execConsoleConfig s
  | .consoleStatus => Sys2Proof.Machine.execConsoleStatus s
  | .entryWrite => Sys2Proof.Machine.execEntryWrite s
  | .defaultWrite => Sys2Proof.Machine.execDefaultWrite s
  | .entryWriteDirect => Sys2Proof.Machine.execEntryWriteDirect s
  | .defaultWriteDirect => Sys2Proof.Machine.execDefaultWriteDirect s
  | .entryRead => Sys2Proof.Machine.execEntryRead s
  | .commit => Sys2Proof.Machine.execCommit s
  | .commitCancel => Sys2Proof.Machine.execCommitCancel s
  | .hitsRead => Sys2Proof.Machine.execHitsRead s
  | .hitsClear => Sys2Proof.Machine.execHitsClear s
  | .tableStatus => Sys2Proof.Machine.execTableStatus s
  | .arm => Sys2Proof.Machine.execArm s
  | .stop => Sys2Proof.Machine.execStop s
  | .triggerNow => Sys2Proof.Machine.execTriggerNow s
  | .levelWrite => Sys2Proof.Machine.execLevelWrite s
  | .levelRead => Sys2Proof.Machine.execLevelRead s
  | .counterConfig => Sys2Proof.Machine.execCounterConfig s
  | .compareWrite => Sys2Proof.Machine.execCompareWrite s
  | .sequencerStatus => Sys2Proof.Machine.execSequencerStatus s
  | .ringConfig => Sys2Proof.Machine.execRingConfig s
  | .ringStart => Sys2Proof.Machine.execRingStart s
  | .ringStop => Sys2Proof.Machine.execRingStop s
  | .ringRead => Sys2Proof.Machine.execRingRead s
  | .ringStatus => Sys2Proof.Machine.execRingStatus s
  | .scanConfig => Sys2Proof.Machine.execScanConfig s
  | .scanSubmit => Sys2Proof.Machine.execScanSubmit s
  | .scanAbortBoundary => Sys2Proof.Machine.execScanAbortBoundary s
  | .scanAbortImmediate => Sys2Proof.Machine.execScanAbortImmediate s
  | .slotLoad => Sys2Proof.Machine.execSlotLoad s
  | .slotRead => Sys2Proof.Machine.execSlotRead s
  | .scanStatus => Sys2Proof.Machine.execScanStatus s
  | .lineSetAssert => Sys2Proof.Machine.execLineSetAssert s
  | .lineSetRelease => Sys2Proof.Machine.execLineSetRelease s
  | .linePress => Sys2Proof.Machine.execLinePress s
  | .lineConfig => Sys2Proof.Machine.execLineConfig s
  | .pairConfig => Sys2Proof.Machine.execPairConfig s
  | .pairConfigClear => Sys2Proof.Machine.execPairConfigClear s
  | .modeSetNormal => Sys2Proof.Machine.execModeSetNormal s
  | .modeSetHold => Sys2Proof.Machine.execModeSetHold s
  | .modeSetSafe => Sys2Proof.Machine.execModeSetSafe s
  | .lineStatus => Sys2Proof.Machine.execLineStatus s
  | .sampleTick receiver pin => Sys2Proof.Machine.execSampleTick receiver pin s
  | .busLineDeparture segment line pin => Sys2Proof.Machine.execBusLineDeparture segment line pin s
  | .bitTaken segment => Sys2Proof.Machine.execBitTaken segment s
  | .tckClock rclk tdo => Sys2Proof.Machine.execTckClock rclk tdo s
  | .frameSent => Sys2Proof.Machine.execFrameSent s

end Sys2Proof.Machine
end

