-- ==== Sys2Proof/Safety.lean ====
section
/-! DEFINITION. What every step keeps: the stores within their places, the interlock and SAFE, the rings, the answers. -/

namespace Sys2Proof.Machine

/-- The step goes on: it answers a next state. -/
def goesOn (s : State) : Prop := ∃ t, step s = .next t

/-! ## Stores (R7–R9, R22, R39, R62, R78, R84, R142, R156, R184, R188, R190) -/

/-- A holding FIFO has at most four records, a lost count at most 255, and guard records wait only at a full FIFO. -/
def Hold.within (h : Hold) : Prop := h.fifo.length ≤ 4 ∧ h.lost ≤ 255 ∧ (h.waiting ≠ [] → h.fifo.length = 4)

/-- The counts that saturate: glitches, the three clock counts of a check, the bytes of an open transaction, and the
dropped entries of a ring. -/
def State.countsWithin (s : State) : Prop :=
  (∀ i : Fin 16, s.stu.lanes[i].glitchCount ≤ 65535) ∧
    (s.stu.check.core ≤ 255 ∧ s.stu.check.bref ≤ 255 ∧ s.stu.check.rclk ≤ 255) ∧
    (∀ g : Fin 2, ∀ o ∈ s.btu.buses[g].openRecord, o.count ≤ 65535) ∧
    (∀ i : Fin 4, s.cst.rings[i].dropped ≤ 2 ^ 32 - 1)

/-- The holding FIFOs, the record queue and its hit counts, the ingress queue, the owed list, the station scan queue, the
SAFE requests in guard (at most one of the sequencer) and the saturating counts are within their places. -/
def State.storesWithin (s : State) : Prop :=
  (∀ i : Fin 33, s.hold[i].within) ∧ s.cle.queue.length ≤ 64 ∧ (∀ i : Fin 65, s.cle.hits[i] ≤ 2 ^ 32 - 1) ∧
    s.slu.ingress.length ≤ 8 ∧ s.slu.owed.length ≤ 64 ∧ s.sce.queue.length ≤ 8 ∧
    s.dcu.safeGuard.count none ≤ 1 ∧ s.countsWithin

/-! ## Interlock and SAFE (R175, R177, R182, R183) -/

/-- A line is in a pair. -/
def Pair.has (p : Pair) (d : Fin 8) : Prop := p.a = d ∨ p.b = d

/-- Every pair joins two different lines, never both active, never both with the safe level ASSERTED, and no line is in
two pairs. -/
def Dcu.interlocked (u : Dcu) : Prop :=
  (∀ n : Fin 4, ∀ p ∈ u.pairs[n], p.a ≠ p.b ∧
    ¬(u.lines[p.a].state.active = true ∧ u.lines[p.b].state.active = true) ∧
    ¬(u.lines[p.a].safeAsserted = true ∧ u.lines[p.b].safeAsserted = true)) ∧
  (∀ m n : Fin 4, m ≠ n → ∀ p ∈ u.pairs[m], ∀ q ∈ u.pairs[n], ∀ d : Fin 8, ¬(p.has d ∧ q.has d))

/-- In SAFE every line stands at its safe level. -/
def Dcu.safeHeld (u : Dcu) : Prop :=
  u.mode = .safe → ∀ d : Fin 8, u.lines[d].state = if u.lines[d].safeAsserted then .asserted else .released

/-! ## Records and rings (R4, R126, R130, R131, R135) -/

/-- A record's body has at most 16 bytes (R4). -/
def Record.bodyWithin (r : Record) : Prop := r.body.length ≤ 16

/-- Every record held or open in the part has at most 16 body bytes, an open text record at most 15, and an open
transaction record the first 16 of the bytes it has counted (R63). -/
def State.bodiesWithin (s : State) : Prop :=
  (∀ i : Fin 33, (∀ r ∈ s.hold[i].fifo, r.bodyWithin) ∧ ∀ r ∈ s.hold[i].waiting, r.bodyWithin) ∧
  (∀ r ∈ s.cle.queue, r.bodyWithin) ∧
  (∀ g : Fin 2, ∀ o ∈ s.btu.buses[g].openRecord, o.body.length = min 16 o.count) ∧
  (∀ c : Fin 2, ∀ o ∈ s.btu.consoles[c].openRecord, o.bytes.length ≤ 15)

/-- The delta an entry stores, 0 for a MARK. -/
def Entry.delta : Entry → Int
  | .ordinary _ _ _ _ d _ _ _ => d
  | .mark _ => 0
  | .trig d _ => d
  | .gap d _ => d

/-- A ring's history is sound: within its capacity, every delta in 24 bits, a WINDOW ring's oldest entry a MARK. -/
def Ring.sound (r : Ring) : Prop :=
  r.occupancy ≤ r.capacity ∧ (∀ e ∈ r.entries, deltaFits e.delta = true) ∧ r.sinceMark ≤ 64 ∧
    (r.mode = .window → ∀ e ∈ r.entries.head?, e.isMark = true) ∧ (r.entries ≠ [] → r.reference.isSome = true)

/-- A ring's state is one its mode allows, an OFF ring holds nothing, and a RUNNING ring has no TRIG entry (7.2). -/
def Ring.placed (r : Ring) : Prop :=
  match r.mode with
  | .off => r.state = .disabled ∧ r.entries = []
  | .window =>
    1 ≤ r.size ∧ (r.state = .ready ∨ r.state = .running ∨ r.state = .post ∨ r.state = .frozen) ∧
      (r.state = .running → r.trig = none)
  | .stream => 1 ≤ r.size ∧ (r.state = .ready ∨ r.state = .streaming)

/-- The allocations of two rings share no block (R126). -/
def Ring.apart (r t : Ring) : Prop := r.mode = .off ∨ t.mode = .off ∨ r.base + r.size ≤ t.base ∨ t.base + t.size ≤ r.base

/-- The Capture Store is sound: each ring, its allocation inside the memory, and no block shared. -/
def Cst.sound (c : Cst) : Prop :=
  (∀ i : Fin 4, c.rings[i].sound ∧ c.rings[i].placed ∧ c.rings[i].base + c.rings[i].size ≤ Config.memoryBlocks) ∧
    (∀ i j : Fin 4, i ≠ j → c.rings[i].apart c.rings[j])

/-! ## Answers (R191) -/

/-- The request of a line's state, if it is held there. -/
def LineState.ticket : LineState → Option Ticket
  | .deferred r _ => r.ticket
  | _ => none

/-- The request a running scan answers. -/
def ScanOrigin.ticket : ScanOrigin → Option Ticket
  | .station t => some t
  | .slot _ => none

/-- The requests held by a line: in guard or in a deferral. -/
def Line.tickets (l : Line) : List Ticket := (l.guarded.bind (·.request.ticket)).toList ++ l.state.ticket.toList

/-- The requests whose response is still to be made, wherever the part holds them. -/
def State.heldTickets (s : State) : List Ticket :=
  s.slu.ingress.map (·.ticket) ++ (s.tbu.armed.map (·.ticket)).toList ++ s.stu.check.running.toList ++
    s.sce.queue.map (·.ticket) ++ (s.sce.running.bind (·.origin.ticket)).toList ++
    s.dcu.lines.toList.flatMap Line.tickets ++ s.dcu.safeGuard.filterMap id

/-- The serial numbers of the requests whose response is made and not yet sent. -/
def Slu.madeIds (u : Slu) : List Nat := u.responses.map (·.ticket.id) ++ (u.sending.bind (·.answers)).toList

/-- Every request on the owed list is either held, unanswered, in exactly one place, or has exactly one response waiting
or being sent. -/
def State.answersOnce (s : State) : Prop :=
  (s.slu.owed.map (·.ticket.id)).Nodup ∧ (∀ o ∈ s.slu.owed, o.ticket.id < s.slu.accepted) ∧
    ((s.slu.owed.filter (!·.answered)).map (·.ticket)).Perm s.heldTickets ∧
    ((s.slu.owed.filter (·.answered)).map (·.ticket.id)).Perm s.slu.madeIds

/-- A line is DEFERRED. -/
def LineState.deferring : LineState → Bool
  | .deferred _ _ => true
  | _ => false

/-- A FREE engine has no running scan, and a line in guard is not DEFERRED. -/
def State.holdersSingle (s : State) : Prop :=
  (s.sce.phase = .free → s.sce.running = none) ∧
    (∀ d : Fin 8, s.dcu.lines[d].guarded.isSome = true → s.dcu.lines[d].state.deferring = false)

end Sys2Proof.Machine
end

