-- ==== Sys2Proof/Certificates/Slice0/Obligations.lean ====
section
/-! DEFINITION. The statements for the provers. A statement about a request names it as the head `q` of the ingress
queue and its payload's bytes by place; its next state is written as the whole state, so what it does not mention is
unchanged. -/

open Sys2Proof Sys2Proof.Machine

namespace Sys2Proof.Claims

/-- The oldest request of the ingress queue is q, with this code. -/
def headIs (s : State) (q : Request) (rest : List Request) (code : Byte) : Prop :=
  s.slu.ingress = q :: rest ∧ q.ticket.code = code

/-- The oldest request has left the ingress queue (R190). -/
def taken (rest : List Request) (s : State) : State := { s with slu := { s.slu with ingress := rest } }

/-- The response of a request has joined the response list, and its owed-list entry counts as answered (R191). -/
def answered (q : Ticket) (st : Status) (p : List Byte) (s : State) : State :=
  { s with
    slu :=
      { s.slu with
        responses := s.slu.responses ++ [{ ticket := q, status := st, payload := p }]
        owed := s.slu.owed.map fun o => { o with answered := o.answered || o.ticket.id == q.id } } }

/-- A request refused at its serving: an empty payload, and nothing else changed. -/
def refusedAs (q : Request) (rest : List Request) (st : Status) (s : State) : State :=
  answered q.ticket st [] (taken rest s)

/-- The code of a request row. -/
def requestCode : Instr → Option Byte
  | .identify => some 0x01
  | .softReset => some 0x02
  | .alertConfig => some 0x03
  | .alertNext => some 0x04
  | .alertClear => some 0x05
  | .timeRead => some 0x10
  | .timeTrim => some 0x11
  | .timeSetImmediate => some 0x12
  | .timeSetArmed => some 0x12
  | .timeSetCancel => some 0x12
  | .laneConfig => some 0x20
  | .laneStatus => some 0x21
  | .glitchClear => some 0x22
  | .decodeConfig => some 0x23
  | .decodeLoad => some 0x24
  | .decodeRead => some 0x25
  | .clockCheck => some 0x26
  | .railConfig => some 0x30
  | .tripClear => some 0x31
  | .railRead => some 0x32
  | .busConfig => some 0x38
  | .busStatus => some 0x39
  | .consoleConfig => some 0x3A
  | .consoleStatus => some 0x3B
  | .entryWrite => some 0x40
  | .defaultWrite => some 0x41
  | .entryWriteDirect => some 0x42
  | .defaultWriteDirect => some 0x43
  | .entryRead => some 0x44
  | .commit => some 0x45
  | .commitCancel => some 0x46
  | .hitsRead => some 0x47
  | .hitsClear => some 0x48
  | .tableStatus => some 0x49
  | .arm => some 0x50
  | .stop => some 0x51
  | .triggerNow => some 0x52
  | .levelWrite => some 0x53
  | .levelRead => some 0x54
  | .counterConfig => some 0x55
  | .compareWrite => some 0x56
  | .sequencerStatus => some 0x57
  | .ringConfig => some 0x60
  | .ringStart => some 0x61
  | .ringStop => some 0x62
  | .ringRead => some 0x63
  | .ringStatus => some 0x64
  | .scanConfig => some 0x70
  | .scanSubmit => some 0x71
  | .scanAbortBoundary => some 0x72
  | .scanAbortImmediate => some 0x72
  | .slotLoad => some 0x73
  | .slotRead => some 0x74
  | .scanStatus => some 0x75
  | .lineSetAssert => some 0x80
  | .lineSetRelease => some 0x80
  | .linePress => some 0x81
  | .lineConfig => some 0x82
  | .pairConfig => some 0x83
  | .pairConfigClear => some 0x83
  | .modeSetNormal => some 0x84
  | .modeSetHold => some 0x84
  | .modeSetSafe => some 0x84
  | .lineStatus => some 0x85
  | _ => none

/-- The periods a digit of |T| names (R12). -/
def namedPeriods : Nat → List Nat
  | 0 => [9]
  | 1 => [5, 13]
  | 2 => [3, 7, 11, 15]
  | 3 => [2, 4, 6, 8, 10, 12, 14, 16]
  | _ => []

/-- A period is selected by the trim T (R12). -/
def selected (t : Int) (n : Nat) : Prop := ∃ k < 4, t.natAbs.testBit k = true ∧ n ∈ namedPeriods k

/-- How many of the periods 1 to j the trim selects. -/
def selectedUpTo (t : Int) (j : Nat) : Nat := ((List.range j).filter fun i => trimSelects t (i + 1)).length

/-- The frame position and the trim are in range. -/
def tbuInFrame (u : Tbu) : Prop :=
  1 ≤ u.period ∧ -15 ≤ u.trim ∧ u.trim ≤ 15 ∧ 1 ≤ u.framePeriod ∧ u.framePeriod ≤ 16 ∧ 1 ≤ u.frameClock ∧
    u.frameClock ≤ u.period

/-- The level on a console line k ticks after the detection of a frame of byte x (4.5). -/
def framePin (x : Byte) (k : Nat) : Bool :=
  if k < 16 then false else if k < 144 then x.getLsbD (k / 16 - 1) else true

/-- A ring emptied: its history, flags and counts at their empty values (R127, R139). -/
def emptyRing (r : Ring) : Ring :=
  { mode := r.mode, base := r.base, size := r.size, post := r.post, priority := r.priority, state := r.state
    entries := [], reference := none, head := none, markDue := false, sinceMark := 0, truncated := false
    stopped := false, dropped := 0, trig := none, written := 0 }

/-- What a write of an entry with stamp v into the WINDOW ring r leaves in w: whole groups removed from the oldest end, no
more than the room needs; a MARK if R130 calls for one; and the entry with its delta from the reference then in force.
The head reference is the stamp of the MARK at the oldest end. -/
def keepsYoungest (r w : Ring) (v : Stamp) (e : Int → Entry) : Prop :=
  ∃ (k : Nat) (due marks : Bool),
    (due = true ↔ r.entries = [] ∨ r.markDue = true ∨ 64 ≤ r.sinceMark ∨
      ∀ ref, r.reference = some ref → deltaFits (deltaOf v ref) = false) ∧
    (marks = true ↔ due = true ∨ r.entries.drop k = []) ∧
    w.entries =
      r.entries.drop k ++ (if marks then [.mark v] else []) ++ [e (if marks then 0 else deltaOf v (r.reference.getD v))] ∧
    w.reference = (if marks then some v else r.reference) ∧ w.markDue = false ∧
    w.sinceMark = (if marks then 1 else r.sinceMark + 1) ∧
    (0 < k ∨ r.entries = [] → w.head = headStamp w.entries) ∧ (k = 0 → r.entries ≠ [] → w.head = r.head) ∧
    w.trig = r.trig.map (fun i => i - k) ∧ (∀ x ∈ (r.entries.drop k).head?, x.isMark = true) ∧
    (∀ j < k, (∀ x ∈ (r.entries.drop j).head?, x.isMark = true) →
      r.capacity < wordsOf (r.entries.drop j) + (e 0).words + (if due then 3 else 0))

/-- The sixteen states of the board's test access port (8.1). -/
inductive Port where
  | reset | idle | selectDr | captureDr | shiftDr | exit1Dr | pauseDr | exit2Dr | updateDr
  | selectIr | captureIr | shiftIr | exit1Ir | pauseIr | exit2Ir | updateIr
  deriving DecidableEq, Repr

/-- The port's move at a rising edge of TCK (8.1). -/
def Port.move (p : Port) (tms : Bool) : Port :=
  match p with
  | .reset => if tms then .reset else .idle
  | .idle => if tms then .selectDr else .idle
  | .selectDr => if tms then .selectIr else .captureDr
  | .captureDr => if tms then .exit1Dr else .shiftDr
  | .shiftDr => if tms then .exit1Dr else .shiftDr
  | .exit1Dr => if tms then .updateDr else .pauseDr
  | .pauseDr => if tms then .exit2Dr else .pauseDr
  | .exit2Dr => if tms then .updateDr else .shiftDr
  | .updateDr => if tms then .selectDr else .idle
  | .selectIr => if tms then .reset else .captureIr
  | .captureIr => if tms then .exit1Ir else .shiftIr
  | .shiftIr => if tms then .exit1Ir else .shiftIr
  | .exit1Ir => if tms then .updateIr else .pauseIr
  | .pauseIr => if tms then .exit2Ir else .pauseIr
  | .exit2Ir => if tms then .updateIr else .shiftIr
  | .updateIr => if tms then .selectDr else .idle

/-- The port state a known tracked state stands for. -/
def portOf : TapState → Port
  | .reset => .reset
  | .idle => .idle
  | .pauseDr => .pauseDr
  | .pauseIr => .pauseIr
  | .unknown => .reset

/-- The port after a list of clocks. -/
def Port.run (p : Port) (l : List TckClock) : Port := l.foldl (fun q k => q.move k.tms) p

/-- A clock of a plan shifts an out bit exactly when the port is in the shift state of the register. -/
def shiftsRight (shift p : Port) (l : List TckClock) : Prop :=
  ∀ a k b, l = a ++ k :: b → (k.out.isSome = true ↔ p.run a = shift)

/-- A scan SCAN SUBMIT or SLOT LOAD can carry (R155). -/
def validScan (c : Scan) : Prop :=
  match c.kind with
  | .irScan => 1 ≤ c.length ∧ c.length ≤ 1024 ∧ c.out.length = c.length
  | .drScan => 1 ≤ c.length ∧ c.length ≤ 4096 ∧ c.out.length = c.length
  | .tapReset => c.length = 0 ∧ c.out = [] ∧ c.pause = false
  | .idleClocks => 1 ≤ c.length ∧ c.length ≤ 65535 ∧ c.out = [] ∧ c.pause = false

end Sys2Proof.Claims

open Sys2Proof.Claims

/-! ## The machine -/

/-- The command at the front of the queue runs on the state with the queue's rest. -/
def Obligations.StepRunsTheFrontCommand : Prop :=
  ∀ (c : Instr) (rest : List Instr) (s : State), s.pending = c :: rest → step s = exec c { s with pending := rest }

/-- Log 1, 2, 30: on an empty queue the first due event is taken, else one core clock passes; no step faults or
refuses. -/
def Obligations.EmptyQueueTakesDueEventOrClock : Prop :=
  (∀ s : State, s.pending = [] →
     (∀ c l, dueEvents s = c :: l → step s = exec c s) ∧ (dueEvents s = [] → step s = .next (coreClock s))) ∧
  (∀ s : State, goesOn s)

/-- Log 4, R190: a request row acts only on a request of its code at the head of the ingress queue, and takes at most that
one; SOFT RESET takes all. What each row does with the request is stated with its unit. -/
def Obligations.RequestsAreServedInArrivalOrder : Prop :=
  ∀ (c : Instr) (code : Byte) (s : State), requestCode c = some code →
    ((∀ q rest, s.slu.ingress = q :: rest → q.ticket.code ≠ code) → exec c s = .next s) ∧
    (∃ t, exec c s = .next t ∧
      (t.slu.ingress = s.slu.ingress ∨ t.slu.ingress = s.slu.ingress.tail ∨ (c = .softReset ∧ t.slu.ingress = [])))

/-! ## Time base (chapter 1) -/

/-- R11; and what else counts at each core clock: the tick divider (R14), the settle count (R33), a running clock check
(R39), the lane filters (R21), a conversion's clocks (R42), the blank holds (R53), the bus filters and stuck timers
(R59, R66), the console ticks and idle timers (R70, R74), the initialization of memory (R125), and the Scan Engine by
`Sce.tickClock`, which TckEdgesFollowTheRate spells (R150, R151). Model's choices: the numbering of the next clock
(log 7), the edges BREF and RCLK give (log 24), the count of initialization clocks (log 6). -/
def Obligations.CoreClockAdvancesTimeBaseAndCounters : Prop :=
  (∀ s : State, s.pending = [] → dueEvents s = [] → tbuInFrame s.tbu →
    ∃ t, step s = .next t ∧
      t.tbu.base = s.tbu.base +
        BitVec.ofInt 48 (if s.tbu.frameClock = s.tbu.period ∧ (∃ k < 4, s.tbu.trim.natAbs.testBit k = true ∧
          s.tbu.framePeriod ∈ namedPeriods k) then 8 + s.tbu.trim.sign else 8) ∧
      (t.tbu.base = s.tbu.base + 7 ∨ t.tbu.base = s.tbu.base + 8 ∨ t.tbu.base = s.tbu.base + 9)) ∧
  (∀ u : Tbu, u.base = 0xFFFFFFFFFFFF#48 → u.trim = 0 → u.advance.base = 7) ∧
  (∀ (v : Stamp) (q : Ticket) (s : State), (applyTimeSet v q s).tbu.base = v) ∧
  (∀ u : Tbu, u.divider = 1 → u.tickDue = false → ∀ k ≤ 125, (Tbu.advance^[k] u).tickDue = decide (k = 125)) ∧
  (∀ s : State, s.pending = [] → dueEvents s = [] → ∃ t, step s = .next t ∧ t.clock = s.clock + 1 ∧
    t.tbu.divider = (if 125 ≤ s.tbu.divider then 1 else s.tbu.divider + 1) ∧
    (t.tbu.tickDue = true ↔ 125 ≤ s.tbu.divider) ∧
    (∀ i : Fin 16,
      (s.stu.lanes[i].filter = .steady → t.stu.lanes[i] = s.stu.lanes[i]) ∧
      (∀ t0 n, s.stu.lanes[i].filter = .pending t0 n →
        t.stu.lanes[i] = { s.stu.lanes[i] with filter := .pending t0 (n + 1) })) ∧
    t.stu.decoder =
      { s.stu.decoder with episode := s.stu.decoder.episode.map fun e => { e with count := e.count + 1 } } ∧
    (s.stu.check.running = none → t.stu.check = s.stu.check) ∧
    (∀ q, s.stu.check.running = some q →
      t.stu.check =
        { running := some q, core := min 255 (s.stu.check.core + 1)
          bref := min 255 (s.stu.check.bref + s.pins.brefEdges.toNat)
          rclk := min 255 (s.stu.check.rclk + s.pins.rclkEdges.toNat) }) ∧
    t.rmu.converting = s.rmu.converting.map (fun k => { k with elapsed := k.elapsed + 1 }) ∧
    t.rmu.lines = s.rmu.lines ∧ t.rmu.position = s.rmu.position ∧
    (∀ c : Fin 8, t.rmu.channels[c] =
      { s.rmu.channels[c] with blankHold := s.rmu.channels[c].blankHold - 1 }) ∧
    (∀ (g : Fin 2) (b : Bus), b = s.btu.buses[g] →
      t.btu.buses[g] =
        { b with
          clockLine := t.btu.buses[g].clockLine, dataLine := t.btu.buses[g].dataLine
          stuckTimer := if b.enabled = true ∧ b.clockLine.accepted = false then b.stuckTimer + 1 else b.stuckTimer } ∧
      (∀ l, (b.line l).filter = .steady → t.btu.buses[g].line l = b.line l) ∧
      (∀ l t0 n, (b.line l).filter = .pending t0 n →
        t.btu.buses[g].line l = { b.line l with filter := .pending t0 (n + 1) })) ∧
    (∀ (r : Fin 2) (c : Console), c = s.btu.consoles[r] →
      t.btu.consoles[r] =
        if c.enabled = true then
          { c with
            tickCounter := if c.divisor ≤ c.tickCounter then 1 else c.tickCounter + 1
            tickDue := decide (c.divisor ≤ c.tickCounter), idleTimer := c.idleTimer.map (· + 1) }
        else c) ∧
    t.sce = s.sce.tickClock s.pins.rclk s.pins.tdo ∧
    ((s.sce.phase = .free ∨ s.sce.phase = .guard) → t.sce = s.sce) ∧
    t.cst.initClocks = (if s.cst.ready = true then s.cst.initClocks else s.cst.initClocks + 1) ∧
    t.pins = s.pins ∧ t.hold = s.hold ∧ t.cle = s.cle ∧ t.tsq = s.tsq ∧ t.cst.rings = s.cst.rings ∧
    t.cst.ready = s.cst.ready ∧ t.free = s.free ∧ t.pending = [] ∧ t.dcu = s.dcu ∧ t.slu = s.slu)

/-- R12: the frame position, the periods selected, the advance over a frame, and the straight line it stays near. -/
def Obligations.TrimFrameAdvancesTimeBase : Prop :=
  (∀ u : Tbu, tbuInFrame u →
    (u.frameClock < u.period → u.advance.frameClock = u.frameClock + 1 ∧ u.advance.framePeriod = u.framePeriod) ∧
    (u.frameClock = u.period → u.advance.frameClock = 1 ∧
      u.advance.framePeriod = if u.framePeriod = 16 then 1 else u.framePeriod + 1)) ∧
  (∀ t : Int, -15 ≤ t → t ≤ 15 →
    (∀ n, 1 ≤ n → n ≤ 16 → (trimSelects t n = true ↔ selected t n)) ∧ selectedUpTo t 16 = t.natAbs) ∧
  (∀ n, ¬selected 0 n) ∧
  (∀ u : Tbu, tbuInFrame u → u.framePeriod = 1 → u.frameClock = 1 →
    (Tbu.advance^[16 * u.period] u).base = u.base + BitVec.ofInt 48 (128 * u.period + u.trim) ∧
    (Tbu.advance^[16 * u.period] u).framePeriod = 1 ∧ (Tbu.advance^[16 * u.period] u).frameClock = 1 ∧
    ∀ k ≤ 16 * u.period, ∃ a : Int, (Tbu.advance^[k] u).base = u.base + BitVec.ofInt 48 (8 * k + a) ∧
      |16 * u.period * a - u.trim * k| < 32 * u.period)

/-- R13. -/
def Obligations.TimeTrimStoresAndRestartsFrame : Prop :=
  ∀ (s : State) (q : Request) (rest : List Request), headIs s q rest codeTimeTrim →
    ((numAt q.payload 0 4 = 0 ∨ 65536 < numAt q.payload 0 4) →
      exec .timeTrim s = .next (refusedAs q rest .range s)) ∧
    (1 ≤ numAt q.payload 0 4 → numAt q.payload 0 4 ≤ 65536 → ∀ t : Int,
      t = (if signedByteAt q.payload 4 < -15 then -15
        else if 15 < signedByteAt q.payload 4 then 15 else signedByteAt q.payload 4) →
      exec .timeTrim s =
        .next (answered q.ticket .done (num 4 (numAt q.payload 0 4) ++ numSigned t)
          { taken rest s with
            tbu := { s.tbu with period := numAt q.payload 0 4, trim := t, framePeriod := 1, frameClock := 1 } }))

/-- R15–R17: a time set applied at once, armed or withdrawn; an armed set that is replaced is answered SUPERSEDED, and one
that stands is applied as V + (a − t0) by the first accepted rising edge of its lane. Model's choices: the application
replaces the base of the present clock (log 7), and a mode byte above 2 is answered RANGE (log 22). -/
def Obligations.TimeSetRequestsAndArmedApplication : Prop :=
  (∀ (s : State) (q : Request) (rest : List Request), headIs s q rest codeTimeSet → byteAt q.payload 0 = 0 →
     ∀ (v : Stamp) (u : State), v = BitVec.ofNat 48 (numAt q.payload 2 6) →
       (u = match s.tbu.armed with
         | none => taken rest s
         | some a => answered a.ticket .superseded [] { taken rest s with tbu := { s.tbu with armed := none } }) →
       ∃ t, exec .timeSetImmediate s = .next (answered q.ticket .done (num 6 v.toNat) t) ∧
         t = setAlert .timeSetApplied
           { produce (newRecord 32 .timeSet v (v.setWidth 32)) { u with tbu := { u.tbu with base := v } } with
             cst := { s.cst with rings := mapAll (fun r => { r with markDue := true }) s.cst.rings } }) ∧
  (∀ (s : State) (q : Request) (rest : List Request), headIs s q rest codeTimeSet →
     (byteAt q.payload 0 = 1 →
       (16 ≤ byteAt q.payload 1 → exec .timeSetArmed s = .next (refusedAs q rest .range s)) ∧
       ∀ i : Fin 16, byteAt q.payload 1 = i.val →
         (s.stu.lanes[i].mode = .off → exec .timeSetArmed s = .next (refusedAs q rest .state s)) ∧
         (s.stu.lanes[i].mode = .sense →
           let set : ArmedSet := { lane := i, value := BitVec.ofNat 48 (numAt q.payload 2 6), ticket := q.ticket }
           exec .timeSetArmed s =
             .next (match s.tbu.armed with
               | none => { taken rest s with tbu := { s.tbu with armed := some set } }
               | some a =>
                 answered a.ticket .superseded []
                   { taken rest s with tbu := { s.tbu with armed := some set } }))) ∧
     (byteAt q.payload 0 = 2 →
       (s.tbu.armed = none → exec .timeSetCancel s = .next (refusedAs q rest .state s)) ∧
       (∀ a, s.tbu.armed = some a →
         exec .timeSetCancel s =
           .next (answered q.ticket .done []
             (answered a.ticket .aborted [] { taken rest s with tbu := { s.tbu with armed := none } })))) ∧
     (3 ≤ byteAt q.payload 0 →
       exec .timeSetImmediate s = .next (refusedAs q rest .range s) ∧
       exec .timeSetArmed s = .next (refusedAs q rest .range s) ∧
       exec .timeSetCancel s = .next (refusedAs q rest .range s))) ∧
  (∀ (s : State) (a : ArmedSet) (t0 : Stamp), s.tbu.armed = some a →
     (∀ level : Bool, timeSetEdge a.lane level t0 s =
       if level then
         applyTimeSet (a.value + (s.tbu.base - t0)) a.ticket { s with tbu := { s.tbu with armed := none } }
       else s) ∧
     (∀ i level, i ≠ a.lane → timeSetEdge i level t0 s = s) ∧
     (∀ n, s.stu.lanes[a.lane].mode = .sense → s.stu.lanes[a.lane].filter = .pending t0 n →
       s.stu.lanes[a.lane].rejectClocks ≤ n → s.stu.lanes[a.lane].accepted = false →
       ∃ t, exec (.laneAcceptance a.lane) s = .next t ∧ t.tbu.base = a.value + (s.tbu.base - t0) ∧ t.tbu.armed = none ∧
         t.slu.alerts[15].pending = true ∧ (∀ i : Fin 4, t.cst.rings[i].markDue = true)))

/-! ## Signal lanes, decoder, clock presence check (chapter 2) -/

/-- R20–R22: a departure makes the filter PENDING; one that returns before the reject width is a glitch; one that
lasts 125·w clocks comes due with the stamp of its first clock. -/
def Obligations.DeparturesBecomeGlitchesOrComeDue : Prop :=
  (∀ (s : State) (i : Fin 16) (pin : Bool) (l : Lane), l = s.stu.lanes[i] → l.mode = .sense →
     (l.width ≠ 0 → l.filter = .steady → (if l.polarity = .activeHigh then pin else !pin) ≠ l.accepted →
       exec (.laneDeparture i pin) s =
         .next { s with
           pins := { s.pins with lanes := put s.pins.lanes i pin }
           stu := { s.stu with lanes := put s.stu.lanes i { l with filter := .pending s.tbu.base 0 } } }) ∧
     (∀ t0 n, l.filter = .pending t0 n → 1 ≤ n → n < l.rejectClocks →
       (if l.polarity = .activeHigh then pin else !pin) = l.accepted →
       ∀ u, u = { s with
           pins := { s.pins with lanes := put s.pins.lanes i pin }
           stu :=
             { s.stu with
               lanes := put s.stu.lanes i { l with filter := .steady, glitchCount := min 65535 (l.glitchCount + 1) } } } →
         exec (.glitch i pin) s =
           .next (if l.glitches then produce (newRecord (srcLane i) .glitch t0 (glitchKey i (n / 125))) u else u))) ∧
  (∀ (s : State) (i : Fin 16) (t0 : Stamp) (n k : Nat), s.stu.lanes[i].mode = .sense →
     s.stu.lanes[i].filter = .pending t0 n →
     (coreClock^[k] s).stu.lanes[i] = { s.stu.lanes[i] with filter := .pending t0 (n + k) } ∧
     ((coreClock^[k] s).stu.lanes[i].acceptDue = some t0 ↔ s.stu.lanes[i].rejectClocks ≤ n + k) ∧
     s.stu.lanes[i].rejectClocks =
       (match s.stu.lanes[i].width with
         | 0 => 0
         | 1 => 125 * 1
         | 2 => 125 * 8
         | 3 => 125 * 64
         | 4 => 125 * 512))

/-- R21, R23, R24: an accepted change sets the level and the stamp, is recorded if reported, and is given to every user of
the lane: the armed time set (an edge only), the decoder and the scan engine, none of which disturbs another's. Model's choice: they
take it in this order (log 40). -/
def Obligations.AcceptedLaneChange : Prop :=
  ∀ (s : State) (i : Fin 16) (l : Lane), l = s.stu.lanes[i] → l.mode = .sense →
    (∀ (t0 : Stamp) (n : Nat), l.filter = .pending t0 n → l.rejectClocks ≤ n →
      ∀ u, u = { s with
          stu :=
            { s.stu with
              lanes := put s.stu.lanes i { l with accepted := !l.accepted, filter := .steady, lastEdge := some t0 } } } →
        exec (.laneAcceptance i) s =
          .next (acceptedChange i (!l.accepted) t0 true
            (if l.edges.selects (!l.accepted) then
              produce (newRecord (srcLane i) (if l.accepted then .edgeFall else .edgeRise) t0 (edgeKey i (!l.accepted))) u
            else u))) ∧
    (∀ pin, l.width = 0 → (if l.polarity = .activeHigh then pin else !pin) ≠ l.accepted →
      ∀ u, u = { s with
          pins := { s.pins with lanes := put s.pins.lanes i pin }
          stu :=
            { s.stu with
              lanes :=
                put s.stu.lanes i { l with accepted := !l.accepted, filter := .steady, lastEdge := some s.tbu.base } } } →
        exec (.bypassAcceptedChange i pin) s =
          .next (acceptedChange i (!l.accepted) s.tbu.base true
            (if l.edges.selects (!l.accepted) then
              produce (newRecord (srcLane i) (if l.accepted then .edgeFall else .edgeRise) s.tbu.base
                (edgeKey i (!l.accepted))) u
            else u))) ∧
    (∀ level t0 byEdge t, t = acceptedChange i level t0 byEdge s →
      t = scanPowerEdge i level (decoderEdge i t0 (if byEdge = true then timeSetEdge i level t0 s else s)) ∧
      t.sce = (scanPowerEdge i level s).sce ∧ t.stu = (decoderEdge i t0 s).stu ∧
      t.tbu = if byEdge = true then (timeSetEdge i level t0 s).tbu else s.tbu) ∧
    (∀ level t0 byEdge, (s.stu.decoder.enabled = false ∨ (i ≠ s.stu.decoder.a ∧ i ≠ s.stu.decoder.b ∧ i ≠ s.stu.decoder.c)) →
      s.sce.powerLane ≠ some i → (∀ a, s.tbu.armed = some a → a.lane ≠ i) → acceptedChange i level t0 byEdge s = s)

/-- R25, R26: LANE CONFIG and the filter's treatment. Model's choices: a byte that names no value is answered RANGE (log
22), and DONE follows the responses of a scan that a re-sense ends (log 34). -/
def Obligations.LaneConfigTreatsTheFilter : Prop :=
  ∀ (s : State) (q : Request) (rest : List Request), headIs s q rest codeLaneConfig →
    ((16 ≤ byteAt q.payload 0 ∨ 5 ≤ byteAt q.payload 3 ∨ laneSettingsAt q.payload = none) →
      exec .laneConfig s = .next (refusedAs q rest .range s)) ∧
    (∀ (i : Fin 16) (c : LaneSettings) (l : Lane) (used : Prop), laneSettingsAt q.payload = some (i, c) →
      l = s.stu.lanes[i] →
      used = ((s.stu.decoder.enabled = true ∧ (i = s.stu.decoder.a ∨ i = s.stu.decoder.b ∨ i = s.stu.decoder.c)) ∨
        s.sce.powerLane = some i ∨ ∃ a, s.tbu.armed = some a ∧ a.lane = i) →
      (used → l.mode = .sense → c.mode = .off → exec .laneConfig s = .next (refusedAs q rest .state s)) ∧
      (¬(used ∧ l.mode = .sense ∧ c.mode = .off) →
        ∀ (f : Filter) (a : Bool) (u : State),
          (f, a) =
            (match l.mode, c.mode with
              | .off, .off => (l.filter, l.accepted)
              | .off, .sense => (.steady, logicalLevel c.polarity s.pins.lanes[i])
              | .sense, .off => (.steady, false)
              | .sense, .sense =>
                if c.polarity = l.polarity ∧ c.width = l.width then (l.filter, l.accepted)
                else (.steady, logicalLevel c.polarity s.pins.lanes[i])) →
          u = { taken rest s with
            stu :=
              { s.stu with
                lanes := put s.stu.lanes i
                  { mode := c.mode, polarity := c.polarity, width := c.width, edges := c.edges, glitches := c.glitches,
                    accepted := a, filter := f, glitchCount := l.glitchCount, lastEdge := l.lastEdge } } } →
          exec .laneConfig s =
            .next (answered q.ticket .done []
              (if l.mode = .sense ∧ c.mode = .sense ∧ a ≠ l.accepted then acceptedChange i a s.tbu.base false u else u))))

/-- R28. -/
def Obligations.GlitchClearZeroesNamedLanes : Prop :=
  ∀ (s : State) (q : Request) (rest : List Request), headIs s q rest codeGlitchClear →
    (∃ lanes : Vector Lane 16,
      exec .glitchClear s =
        .next (answered q.ticket .done [] { taken rest s with stu := { s.stu with lanes := lanes } }) ∧
      ∀ i : Fin 16, lanes[i] =
        if (numAt q.payload 0 2).testBit i.val then { s.stu.lanes[i] with glitchCount := 0 } else s.stu.lanes[i]) ∧
    (∀ (i : Fin 16) (pin : Bool) (t0 : Stamp) (n : Nat) (t u : State), (numAt q.payload 0 2).testBit i.val = true →
      s.stu.lanes[i].mode = .sense → s.stu.lanes[i].filter = .pending t0 n → 1 ≤ n → n < s.stu.lanes[i].rejectClocks →
      logicalLevel s.stu.lanes[i].polarity pin = s.stu.lanes[i].accepted →
      ((exec (.glitch i pin) s = .next t ∧ exec .glitchClear t = .next u → u.stu.lanes[i].glitchCount = 0) ∧
      (exec .glitchClear s = .next t ∧ exec (.glitch i pin) t = .next u → u.stu.lanes[i].glitchCount = 1) ∧
      ((exec (.glitch i pin) s = .next t ∧ exec .glitchClear t = .next u) ∨
          (exec .glitchClear s = .next t ∧ exec (.glitch i pin) t = .next u) →
        s.stu.lanes[i].glitches = true →
        u.hold[srcLane i] = s.hold[srcLane i].accept (newRecord (srcLane i) .glitch t0 (glitchKey i (n / 125))))))

/-- R30, R31, R35: DECODE CONFIG. Model's choices: 0 is yes (log 8), an enable above 1 is answered RANGE (log 22). -/
def Obligations.DecodeConfigEnablesAndDisables : Prop :=
  ∀ (s : State) (q : Request) (rest : List Request), headIs s q rest codeDecodeConfig →
    ((16 ≤ byteAt q.payload 0 ∨ 16 ≤ byteAt q.payload 1 ∨ 16 ≤ byteAt q.payload 2 ∨ 1023 < numAt q.payload 3 2 ∨
        2 ≤ byteAt q.payload 5) →
      exec .decodeConfig s = .next (refusedAs q rest .range s)) ∧
    (∀ (a b c : Fin 16) (d : Decoder), byteAt q.payload 0 = a.val → byteAt q.payload 1 = b.val →
      byteAt q.payload 2 = c.val → numAt q.payload 3 2 ≤ 1023 →
      d = { s.stu.decoder with a := a, b := b, c := c, settle := numAt q.payload 3 2 } →
      (byteAt q.payload 5 = 1 → s.stu.decoder.enabled = false →
        exec .decodeConfig s = .next (answered q.ticket .done [] { taken rest s with stu := { s.stu with decoder := d } })) ∧
      (byteAt q.payload 5 = 0 → s.stu.decoder.enabled = true → exec .decodeConfig s = .next (refusedAs q rest .state s)) ∧
      (byteAt q.payload 5 = 1 → s.stu.decoder.enabled = true →
        exec .decodeConfig s =
          .next (answered q.ticket .done []
            { taken rest s with
              stu := { s.stu with decoder := { d with enabled := false, episode := none, current := none } } })) ∧
      (byteAt q.payload 5 = 0 → s.stu.decoder.enabled = false →
        ((s.stu.lanes[a].mode = .off ∨ s.stu.lanes[b].mode = .off ∨ s.stu.lanes[c].mode = .off) →
          exec .decodeConfig s = .next (refusedAs q rest .state s)) ∧
        (s.stu.lanes[a].mode = .sense → s.stu.lanes[b].mode = .sense → s.stu.lanes[c].mode = .sense →
          ∀ (code : Fin 8) (x : PlatformState),
            code.val = 4 * bit s.stu.lanes[c].accepted + 2 * bit s.stu.lanes[b].accepted + bit s.stu.lanes[a].accepted →
            x = s.stu.decoder.table[code].state →
            exec .decodeConfig s =
              .next (answered q.ticket .done []
                (produce
                  { newRecord 16 .state s.tbu.base (stateKey none (some x) code) with flags := { initial := true } }
                  { taken rest s with
                    stu := { s.stu with decoder := { d with enabled := true, episode := none, current := some x } } })))))

/-- R36. -/
def Obligations.DecodeLoadReplacesTheTable : Prop :=
  ∀ (s : State) (q : Request) (rest : List Request), headIs s q rest codeDecodeLoad →
    ((∃ k < 8, 5 ≤ byteAt q.payload (2 * k) ∨ 32 ≤ byteAt q.payload (2 * k + 1)) →
      exec .decodeLoad s = .next (refusedAs q rest .range s)) ∧
    ((∀ k < 8, byteAt q.payload (2 * k) ≤ 4 ∧ byteAt q.payload (2 * k + 1) ≤ 31) →
      (s.stu.decoder.enabled = true → exec .decodeLoad s = .next (refusedAs q rest .state s)) ∧
      (s.stu.decoder.enabled = false →
        ∃ table : Vector DecodeEntry 8,
          exec .decodeLoad s =
            .next (answered q.ticket .done []
              { taken rest s with stu := { s.stu with decoder := { s.stu.decoder with table := table } } }) ∧
          ∀ k : Fin 8, table[k].state.num = byteAt q.payload (2 * k.val) ∧
            table[k].allowed.toNat = byteAt q.payload (2 * k.val + 1))) ∧
    ((s.stu.decoder.episode.isSome = true → s.stu.decoder.enabled = true) → s.stu.decoder.episode.isSome = true →
      ∃ t, exec .decodeLoad s = .next t ∧ t.stu.decoder.table = s.stu.decoder.table)

/-- R32, R33: the settle episode opens, keeps its stamp, and at its expiry decodes the present code; with S = 0 it
expires at the clock of the change. -/
def Obligations.SettleEpisodeDecodesAtExpiry : Prop :=
  ∀ (s : State) (d : Decoder), d = s.stu.decoder →
    (∀ i t0, (d.enabled = false ∨ (i ≠ d.a ∧ i ≠ d.b ∧ i ≠ d.c)) → decoderEdge i t0 s = s) ∧
    (∀ (i : Fin 16) (t0 : Stamp) (u : State), d.enabled = true → (i = d.a ∨ i = d.b ∨ i = d.c) →
      u = { s with
        stu :=
          { s.stu with
            decoder :=
              { d with
                episode := some
                  { stamp := match d.episode with
                      | some e => e.stamp
                      | none => t0
                    count := 0 } } } } →
      (1 ≤ d.settle → decoderEdge i t0 s = u) ∧
      (d.settle = 0 → exec .episodeExpiry u = .next (decoderEdge i t0 s))) ∧
    (∀ (e : Episode) (x : PlatformState) (u : State), d.episode = some e → 125 * d.settle ≤ e.count →
      x = d.table[s.code].state →
      s.code.val = 4 * bit s.stu.lanes[d.c].accepted + 2 * bit s.stu.lanes[d.b].accepted +
        bit s.stu.lanes[d.a].accepted ∧
      (u = { s with stu := { s.stu with decoder := { d with episode := none, current := some x } } } →
        (d.current = some x → exec .episodeExpiry s = .next u) ∧
        (∀ p, d.current = some p → p ≠ x → d.table[s.code].allowed.getLsbD p.num = true →
          exec .episodeExpiry s = .next (produce (newRecord 16 .state e.stamp (stateKey (some p) (some x) s.code)) u)) ∧
        (∀ p, d.current = some p → p ≠ x → d.table[s.code].allowed.getLsbD p.num = false →
          exec .episodeExpiry s =
            .next (setAlert .seqViolation
              (produce (newRecord 16 .seqViolation e.stamp (stateKey (some p) (some x) s.code))
                (produce (newRecord 16 .state e.stamp (stateKey (some p) (some x) s.code)) u))))))

/-- R39, R40: a check starts or restarts, counts the edges of its three clocks, each to 255, and ends when one of them
stands there. Model's choice: the edges BREF and RCLK give in a core clock, which CLOCK_CHECK_END brings (log 24). -/
def Obligations.ClockCheckRunsAndEnds : Prop :=
  (∀ c : ClockCheck, ∀ full : Prop, full = (c.core = 255 ∨ c.bref = 255 ∨ c.rclk = 255) → ∀ k b r : Nat,
    ((c.running = none ∨ full) → c.count k b r = c) ∧
    (c.running ≠ none → ¬full →
      c.count k b r =
        { c with core := min 255 (c.core + k), bref := min 255 (c.bref + b), rclk := min 255 (c.rclk + r) })) ∧
  ∀ s : State,
    (∀ (q : Request) (rest : List Request), headIs s q rest codeClockCheck →
      exec .clockCheck s =
        .next (match s.stu.check.running with
          | none =>
            { taken rest s with
              stu := { s.stu with check := { running := some q.ticket, core := 0, bref := 0, rclk := 0 } } }
          | some t =>
            { answered t .superseded [] (taken rest s) with
              stu := { s.stu with check := { running := some q.ticket, core := 0, bref := 0, rclk := 0 } } })) ∧
    (∀ (x y : BitVec 8) (u : State), u = { s with pins := { s.pins with brefEdges := x, rclkEdges := y } } →
      ∀ full : Prop, full = (s.stu.check.core = 255 ∨ s.stu.check.bref = 255 ∨ s.stu.check.rclk = 255) →
        ((s.stu.check.running = none ∨ ¬full) → exec (.clockCheckEnd x y) s = .next u) ∧
        (∀ t, s.stu.check.running = some t → full →
          exec (.clockCheckEnd x y) s =
            .next (answered t .done
              (num 1 s.stu.check.core ++ num 1 s.stu.check.bref ++ num 1 s.stu.check.rclk)
              (produce
                (newRecord 17 .clockResult s.tbu.base
                  (clockKey s.stu.check.core s.stu.check.bref s.stu.check.rclk))
                { u with stu := { s.stu with check := { s.stu.check with running := none } } })) ∧
          Instr.clockCheckEnd s.pins.brefEdges s.pins.rclkEdges ∈ dueEvents s)) ∧
    (∀ (t : Ticket) (c : ClockCheck) (b r k : Nat), c = s.stu.check → c.running = some t →
      b = s.pins.brefEdges.toNat → r = s.pins.rclkEdges.toNat → 1 ≤ k → c.core + k ≤ 255 →
      (∀ j < k, c.bref + j * b < 255 ∧ c.rclk + j * r < 255) →
      (coreClock^[k] s).stu.check =
        { running := some t, core := c.core + k, bref := min 255 (c.bref + k * b), rclk := min 255 (c.rclk + k * r) })

/-! ## Rail monitor (chapter 3) -/

/-- R42, R44, R48–R50, R52, R55: the value of a conversion, the trip and sample steps, the four steps in order, the
protection request and the choice of the next; the end of a blank. Model's choices: the code is brought by the event
(log 23), and the SAFE entry follows the four steps (log 28). -/
def Obligations.ConversionEndAndBlankEnd : Prop :=
  (∀ (s : State) (c : Fin 8) (e : Nat) (code : BitVec 12) (x : Channel) (k : Conversion) (u v : State),
    s.rmu.converting = some { channel := c, elapsed := e } → 250 ≤ e → x = s.rmu.channels[c] →
    k = { code := code, value := min 65535 (code.toNat * x.gain / 1024),
          saturated := decide (65535 < code.toNat * x.gain / 1024) } →
    u = sampleStage c k
      (tripStage c k (x.windowStep k.value).jump
        (windowStage c k { s with pins := { s.pins with rails := put s.pins.rails c code } })) →
    v = (if x.protect = true ∧ 1 ≤ x.trip ∧ x.trip ≤ k.value ∧ x.tripped = false then enterSafe u else u) →
    exec (.conversionEnd code) s = .next { v with rmu := v.rmu.startNext }) ∧
  (∀ (s : State) (c : Fin 8) (k : Conversion) (jump : Bool) (x : Channel), x = s.rmu.channels[c] →
    ((x.trip = 0 ∨ k.value < x.trip ∨ x.tripped = true) → tripStage c k jump s = s) ∧
    (1 ≤ x.trip → x.trip ≤ k.value → x.tripped = false →
      tripStage c k jump s =
        setAlert .railTrip
          (produce (railRecord c .railTrip x.window jump k.value k.saturated false s.tbu.base)
            { s with rmu := s.rmu.setChannel c { x with tripped := true } })) ∧
    (x.decim = 0 → sampleStage c k s = s) ∧
    (x.samples + 1 < x.decim →
      sampleStage c k s = { s with rmu := s.rmu.setChannel c { x with samples := x.samples + 1 } }) ∧
    (1 ≤ x.decim → x.decim ≤ x.samples + 1 →
      sampleStage c k s =
        produce (railRecord c .railSample x.window false k.value k.saturated false s.tbu.base)
          { s with rmu := s.rmu.setChannel c { x with samples := 0 } })) ∧
  (∀ u : Rmu, (∀ c : Fin 8, u.channels[c].enabled = false) → u.startNext = { u with converting := none }) ∧
  (∀ (u : Rmu) (i : Nat) (c : Fin 8), i < 8 → c.val = (u.position.val + 1 + i) % 8 → u.channels[c].enabled = true →
    (∀ j < i, ∀ d : Fin 8, d.val = (u.position.val + 1 + j) % 8 → u.channels[d].enabled = false) →
    u.startNext = { u with converting := some { channel := c, elapsed := 0 }, position := c }) ∧
  (∀ (s : State) (c : Fin 8) (x : Channel), x = s.rmu.channels[c] → x.blanked = true → x.blankHold = 0 →
    (∀ d : Fin 8, ¬(s.rmu.lines[d].active = true ∧ s.rmu.lines[d].mask.getLsbD c.val = true)) →
    ∀ u, u = { s with rmu := s.rmu.setChannel c { x with blanked := false } } →
      exec (.blankHoldExpiry c) s =
        .next
          (match (match x.blankLatch, x.window with
            | .inside, .above => some (Kind.railLeaveHigh, false)
            | .inside, .below => some (.railLeaveLow, false)
            | .below, .above => some (.railLeaveHigh, true)
            | .above, .below => some (.railLeaveLow, true)
            | .above, .inside => some (.railEnter, false)
            | .below, .inside => some (.railEnter, false)
            | _, _ => none) with
          | none => u
          | some (kind, jump) =>
            produce
              (railRecord c kind x.window jump ((x.last.map (·.value)).getD 0) (x.last.any (·.saturated)) true s.tbu.base)
              u))

/-- R45, R46, R47, R54: the window step of a conversion, its record, and what a blank holds back. -/
def Obligations.WindowMovesWithHysteresis : Prop :=
  ∀ (s : State) (c : Fin 8) (k : Conversion) (x : Channel) (v : Nat), x = s.rmu.channels[c] → v = k.value →
    (x.window = .unknown → ∀ w, w = (if v < x.low then .below else if x.high < v then .above else .inside) →
      windowStage c k s =
        produce (railRecord c .railInitial w false v k.saturated false s.tbu.base)
          { s with
            rmu := s.rmu.setChannel c
              { x with window := w, blankLatch := if x.blanked then w else x.blankLatch, last := some k } }) ∧
    (x.window ≠ .unknown → ∀ row : Option (Window × Kind × Bool),
      row =
        (match x.window with
          | .inside =>
            if x.high < v then some (.above, .railLeaveHigh, false)
            else if v < x.low then some (.below, .railLeaveLow, false)
            else none
          | .above =>
            if v < x.low then some (.below, .railLeaveLow, true)
            else if v ≤ x.high - x.hyst then some (.inside, .railEnter, false)
            else none
          | .below =>
            if x.high < v then some (.above, .railLeaveHigh, true)
            else if min 65535 (x.low + x.hyst) ≤ v then some (.inside, .railEnter, false)
            else none
          | .unknown => none) →
      windowStage c k s =
        match row with
        | none => { s with rmu := s.rmu.setChannel c { x with last := some k } }
        | some (w, kind, jump) =>
          let u := { s with rmu := s.rmu.setChannel c { x with window := w, last := some k } }
          if x.blanked then u else produce (railRecord c kind w jump v k.saturated false s.tbu.base) u)

/-- R49, R50, R53, R54, R172, R182, R183: a line's move with its notice and the blanking it begins or lets run out; SAFE
entry line by line; and a protected trip, which puts the part into SAFE within the conversion that trips. Model's choices:
each notice of one SAFE entry is handled in full, with the blanks it ends, before the next (log 37), and a line that
leaves ASSERTED for DEFERRED keeps its last release (log 42). -/
def Obligations.LineNoticesAndSafeEntry : Prop :=
  (∀ (s : State) (d : Fin 8) (st : LineState) (l : Line) (u : State), l = s.dcu.lines[d] →
    u = { s with
      dcu :=
        { s.dcu with
          lines := put s.dcu.lines d
            { l with
              state := st
              lastRelease :=
                if l.state.active = true ∧ st = .released then some { clock := s.clock, stamp := s.tbu.base }
                else l.lastRelease } } } →
    (l.state.active = st.active → moveLine d st s = u) ∧
    (l.state.active = false → st.active = true → ∃ channels : Vector Channel 8,
      moveLine d st s =
        { u with
          rmu := { s.rmu with lines := put s.rmu.lines d { active := true, mask := l.mask }, channels := channels } } ∧
      ∀ c : Fin 8, channels[c] =
        if l.mask.getLsbD c.val = true ∧ s.rmu.channels[c].blanked = false then
          { s.rmu.channels[c] with blanked := true, blankLatch := s.rmu.channels[c].window }
        else s.rmu.channels[c]) ∧
    (l.state.active = true → st.active = false → ∃ channels : Vector Channel 8,
      moveLine d st s =
        (List.finRange 8).foldl (fun t c => endBlank c t)
          { u with
            rmu :=
              { s.rmu with
                lines := put s.rmu.lines d { active := false, mask := s.rmu.lines[d].mask }, channels := channels } } ∧
      ∀ c : Fin 8, channels[c] =
        if s.rmu.lines[d].mask.getLsbD c.val = true then
          { s.rmu.channels[c] with blankHold := max s.rmu.channels[c].blankHold (125000 * l.interval) }
        else s.rmu.channels[c])) ∧
  (∀ (s : State) (c : Fin 8), exec (.blankHoldExpiry c) s = .next (endBlank c s)) ∧
  (∀ (s : State) (d : Fin 8) (l : Line), l = s.dcu.lines[d] → ∀ change : LineState → State → State,
    (∀ st t, change st t =
      moveLine d st (produce (newRecord 31 .driveSafe s.tbu.base (driveKey d .safe .none 0)) t)) →
    ∀ refused : LineRequest → State,
      (∀ r, refused r =
        respondTo r.ticket .safe []
          (produce (newRecord 31 .driveRefused s.tbu.base (driveKey d r.action .safe r.width)) s)) →
      (l.safeAsserted = false →
        (l.state = .released → safeLine d s = s) ∧
        (l.state = .asserted → safeLine d s = change .released s) ∧
        (∀ w e, l.state = .pressing w e → safeLine d s = change .released s) ∧
        (∀ r e, l.state = .deferred r e → safeLine d s = moveLine d .released (refused r))) ∧
      (l.safeAsserted = true →
        (l.state = .released → safeLine d s = change .asserted s) ∧
        (l.state = .asserted → safeLine d s = s) ∧
        (∀ w e, l.state = .pressing w e → safeLine d s = change .asserted s) ∧
        (∀ r e, l.state = .deferred r e → safeLine d s = change .asserted (refused r)))) ∧
  (∀ s : State, (s.dcu.mode = .safe → enterSafe s = s) ∧
    (s.dcu.mode ≠ .safe → ∀ u, u = (List.finRange 8).foldl (fun t d => safeLine d t) s →
      enterSafe s = setAlert .safe { u with dcu := { u.dcu with mode := .safe } })) ∧
  (∀ (s : State) (c : Fin 8) (e : Nat) (code : BitVec 12), s.dcu.safeHeld →
    s.rmu.converting = some { channel := c, elapsed := e } → 250 ≤ e → s.rmu.channels[c].protect = true →
    s.rmu.channels[c].tripped = false → 1 ≤ s.rmu.channels[c].trip →
    s.rmu.channels[c].trip ≤ min 65535 (code.toNat * s.rmu.channels[c].gain / 1024) →
    ∃ t, exec (.conversionEnd code) s = .next t ∧ t.dcu.mode = .safe ∧
      (∀ d : Fin 8, t.dcu.lines[d].state = if s.dcu.lines[d].safeAsserted then .asserted else .released) ∧
      t.rmu.channels[c].tripped = true ∧ t.rmu.tripHeld = true ∧ t.slu.alerts[2].pending = true ∧
      (s.dcu.mode ≠ .safe → t.slu.alerts[3].pending = true))

/-- R43, R56: RAIL CONFIG. Model's choices: 0 is yes and on (log 8), a yes or no byte above 1 is answered RANGE (log
22). -/
def Obligations.RailConfigStartsAfresh : Prop :=
  ∀ (s : State) (q : Request) (rest : List Request), headIs s q rest codeRailConfig →
    ((8 ≤ byteAt q.payload 0 ∨ numAt q.payload 2 2 = 0 ∨ numAt q.payload 6 2 < numAt q.payload 4 2 ∨
        256 < numAt q.payload 13 2 ∨ 2 ≤ byteAt q.payload 1 ∨ 2 ≤ byteAt q.payload 12) →
      exec .railConfig s = .next (refusedAs q rest .range s)) ∧
    (∀ (c : Fin 8) (en pr : Bool) (x : Channel) (u : Rmu), byteAt q.payload 0 = c.val →
      byteAt q.payload 1 = (if en then 0 else 1) → byteAt q.payload 12 = (if pr then 0 else 1) →
      1 ≤ numAt q.payload 2 2 → numAt q.payload 4 2 ≤ numAt q.payload 6 2 → numAt q.payload 13 2 ≤ 256 →
      x = { s.rmu.channels[c] with
        enabled := en, gain := numAt q.payload 2 2, low := numAt q.payload 4 2, high := numAt q.payload 6 2
        hyst := numAt q.payload 8 2, trip := numAt q.payload 10 2, protect := pr, decim := numAt q.payload 13 2
        window := .unknown, samples := 0
        blankLatch := if s.rmu.channels[c].blanked then .unknown else s.rmu.channels[c].blankLatch } →
      u = s.rmu.setChannel c x →
      exec .railConfig s =
        .next (answered q.ticket .done []
          { taken rest s with
            rmu :=
              match s.rmu.converting with
              | none => u.startNext
              | some k => if k.channel = c then u.startNext else u }))

/-- R50, R51: TRIP CLEAR, with both orders of it and the end of a conversion. Model's choices: the answer is one byte for
each channel (log 10), 0 clear and 1 set (log 8). -/
def Obligations.TripClearEmptiesNamedLatches : Prop :=
  ∀ (s : State) (q : Request) (rest : List Request), headIs s q rest codeTripClear →
    (∃ (channels : Vector Channel 8) (p : List Byte),
      exec .tripClear s =
        .next (answered q.ticket .done p { taken rest s with rmu := { s.rmu with channels := channels } }) ∧
      (∀ c : Fin 8, channels[c] =
        if (byteAt q.payload 0).testBit c.val then { s.rmu.channels[c] with tripped := false } else s.rmu.channels[c]) ∧
      (p = channels.toList.map fun x => if x.tripped then 1 else 0) ∧
      (∀ t, exec .tripClear s = .next t →
        (t.rmu.tripHeld = true ↔ ∃ c : Fin 8, channels[c].protect = true ∧ channels[c].tripped = true))) ∧
    (∀ (c : Fin 8) (k : Conversion) (jump : Bool) (t u : State), (byteAt q.payload 0).testBit c.val = true →
      1 ≤ s.rmu.channels[c].trip → s.rmu.channels[c].trip ≤ k.value → s.rmu.channels[c].tripped = true →
      (tripStage c k jump s = s) ∧
      (exec .tripClear s = .next t → u = tripStage c k jump t → u.rmu.channels[c].tripped = true ∧
        u.slu.alerts[2].pending = true))

/-! ## Buses and consoles (chapter 4) -/

/-- R59, R60: when a change of a bus line is accepted, and with which stamp; departures, returns, samples that change
nothing, and silent data changes, at once with filter width 0 (which row takes these is the model's choice, log 25; that
the row leaves every other change where it is due alone is log 3). -/
def Obligations.BusLineFilter : Prop :=
  ∀ (s : State) (g : Fin 2) (l : BusLine) (b : Bus), b = s.btu.buses[g] →
    (b.enabled = false → s.busChangeDue g l = none ∧
      ∀ pin, exec (.busLineDeparture g l pin) s = .next (setBusPin g l pin s)) ∧
    (b.enabled = true → b.width = 0 → (b.line l).filter = .steady →
      s.busChangeDue g l = if s.busPin g l = (b.line l).accepted then none else some s.tbu.base) ∧
    (∀ t0 n, b.enabled = true → (b.line l).filter = .pending t0 n →
      s.busChangeDue g l = if (match b.width with
        | 0 => 0
        | 1 => 7
        | 2 => 13
        | 3 => 25) ≤ n then some t0 else none) ∧
    (∀ pin, b.enabled = true → b.width ≠ 0 → (b.line l).filter = .steady → pin ≠ (b.line l).accepted →
      exec (.busLineDeparture g l pin) s =
        .next (setBus g (b.setLine l { b.line l with filter := .pending s.tbu.base 0 }) (setBusPin g l pin s))) ∧
    (∀ pin t0 n, b.enabled = true → (b.line l).filter = .pending t0 n → n < b.filterClocks → pin = (b.line l).accepted →
      exec (.busLineDeparture g l pin) s =
        .next (setBus g (b.setLine l { b.line l with filter := .steady }) (setBusPin g l pin s))) ∧
    (∀ pin t0 n, b.enabled = true → b.dataLine.filter = .pending t0 n → b.filterClocks ≤ n →
      b.clockLine.accepted = false →
      exec (.busLineDeparture g .data pin) s =
        .next (setBus g { b with dataLine := { accepted := !b.dataLine.accepted, filter := .steady } }
          (setBusPin g .data pin s))) ∧
    (∀ pin, b.enabled = true → b.width = 0 → b.dataLine.filter = .steady → b.clockLine.accepted = false →
      pin ≠ b.dataLine.accepted →
      exec (.busLineDeparture g .data pin) s =
        .next (setBus g { b with dataLine := { accepted := !b.dataLine.accepted, filter := .steady } }
          (setBusPin g .data pin s))) ∧
    (∀ pin, b.enabled = true →
      (((b.line l).filter = .steady ∧ pin = (b.line l).accepted) ∨
        ∃ t0 n, (b.line l).filter = .pending t0 n ∧ n < b.filterClocks ∧ pin ≠ (b.line l).accepted) →
      exec (.busLineDeparture g l pin) s = .next (setBusPin g l pin s)) ∧
    (∀ pin, ((setBusPin g l pin s).busChangeDue g l).isSome = true → (l = .clock ∨ b.clockLine.accepted = true) →
      exec (.busLineDeparture g l pin) s = .next (setBusPin g l pin s))

/-- R61, R63, R64, R65: START and STOP close the open record by its phase; START opens one. Model's reading: the bit count
is 0 after a STOP inside a byte (log 41). -/
def Obligations.BusStartAndStop : Prop :=
  (∀ (s : State) (g : Fin 2) (t0 : Stamp) (b : Bus), b = s.btu.buses[g] → s.busChangeDue g .data = some t0 →
    b.clockLine.accepted = true →
    (b.dataLine.accepted = true →
      exec (.busStart g) s =
        .next (setBus g
          { b with
            dataLine := { accepted := false, filter := .steady }, highClean := false, phase := .address, bitCount := 0
            byte := 0
            openRecord := some
              { stamp := t0, address := 0, first := 0, second := 0, body := [], count := 0, truncated := false } }
          (match b.openRecord with
            | none => s
            | some o => produce (b.closingRecord g o true) s))) ∧
    (b.dataLine.accepted = false →
      exec (.busStop g) s =
        .next (setBus g
          { b with
            dataLine := { accepted := true, filter := .steady }, highClean := false, phase := .idle, bitCount := 0
            byte := 0, openRecord := none }
          (match b.openRecord with
            | none => s
            | some o => produce (b.closingRecord g o false) s)))) ∧
  (∀ (b : Bus) (g : Fin 2) (o : BusRecord) (continued : Bool) (r : Record), r = b.closingRecord g o continued →
    r.source = srcBus g ∧ r.stamp = o.stamp ∧
    (b.phase = .ignore → r.kind = .busAddrNak ∧ r.body = [] ∧ r.flags = { continued := continued } ∧
      r.key = busKey o.address o.first o.second o.count) ∧
    (b.phase = .data → b.bitCount = 0 →
      r.kind = (if o.address.getLsbD 0 then .busRead else .busWrite) ∧ r.body = o.body ∧
      r.flags = { truncated := o.truncated, continued := continued } ∧
      r.key = busKey o.address o.first o.second o.count) ∧
    ((b.phase = .address ∨ (b.phase = .data ∧ 1 ≤ b.bitCount)) →
      r.kind = .busError ∧ r.body = o.body ∧ r.flags = { truncated := o.truncated } ∧
      r.key = busKey (if b.phase = .address then b.byte <<< (8 - b.bitCount) else o.address) o.first o.second b.bitCount))

/-- R60–R62, R66: the clock edges, the bits, the bytes, and the stuck clock. Model's reading: the bit count is 0 after the
stuck timeout (log 41). -/
def Obligations.BusBitsBytesAndStuckClock : Prop :=
  (∀ (s : State) (g : Fin 2) (t0 : Stamp) (b : Bus), b = s.btu.buses[g] → s.busChangeDue g .clock = some t0 →
     (b.clockLine.accepted = false → b.stuck = false →
       exec (.bitTaken g) s =
         .next (setBus g
           { b with
             clockLine := { accepted := true, filter := .steady }, highClean := true, highBit := b.dataLine.accepted } s)) ∧
     (b.clockLine.accepted = true → ∀ f : Bus,
       f = { b with clockLine := { accepted := false, filter := .steady }, highClean := false, stuckTimer := 0 } →
       ((b.highClean = false ∨ b.phase = .idle ∨ b.phase = .ignore) → exec (.bitTaken g) s = .next (setBus g f s)) ∧
       (b.highClean = true → (b.phase = .address ∨ b.phase = .data) → b.bitCount < 8 →
         exec (.bitTaken g) s =
           .next (setBus g
             { f with byte := (b.byte <<< 1) ||| (if b.highBit then 1 else 0), bitCount := b.bitCount + 1 } s)) ∧
       (b.highClean = true → b.phase = .address → 8 ≤ b.bitCount →
         exec (.busByteEnd g) s =
           .next (setBus g
             { f with
               phase := if b.highBit then .ignore else .data, bitCount := 0, byte := 0
               openRecord := b.openRecord.map fun o => { o with address := b.byte } } s)) ∧
       (b.highClean = true → b.phase = .data → 8 ≤ b.bitCount →
         exec (.busByteEnd g) s =
           .next (setBus g
             { f with
               bitCount := 0, byte := 0
               openRecord := b.openRecord.map fun o =>
                 { o with
                   count := min 65535 (o.count + 1)
                   first := if o.count = 0 then b.byte else o.first
                   second := if o.count = 1 then b.byte else o.second
                   body := if o.count ≤ 15 then o.body ++ [b.byte] else o.body
                   truncated := o.truncated || decide (16 ≤ o.count) } } s)))) ∧
  (∀ (s : State) (g : Fin 2) (b : Bus), b = s.btu.buses[g] →
     (b.enabled = true → b.clockLine.accepted = false → b.stuck = false → 125000 * b.timeout ≤ b.stuckTimer →
       ∀ u, u = setBus g { b with openRecord := none, phase := .idle, bitCount := 0, byte := 0, stuck := true } s →
         exec (.stuckTimeout g) s =
           .next (setAlert .busStuck
             (produce (newRecord (srcBus g) .busStuck s.tbu.base 0)
               (match b.openRecord with
                 | none => u
                 | some o =>
                   produce
                     { newRecord (srcBus g) .busError o.stamp
                         (busKey (if b.phase = .address then b.byte <<< (8 - b.bitCount) else o.address) o.first o.second
                           b.bitCount) with
                       body := o.body, flags := { truncated := o.truncated } } u)))) ∧
     (∀ t0, s.busChangeDue g .clock = some t0 → b.clockLine.accepted = false → b.stuck = true →
       exec (.stuckEpisodeEnd g) s =
         .next (setBus g
           { b with
             clockLine := { accepted := true, filter := .steady }, highClean := true, highBit := b.dataLine.accepted
             stuck := false } s)))

/-- R67, R75: BUS CONFIG and CONSOLE CONFIG. Model's choices: 0 is yes (log 8), the fields no rule names (log 16), and
a byte that names no value is answered RANGE (log 22). -/
def Obligations.BusAndConsoleConfigRestart : Prop :=
  (∀ (s : State) (q : Request) (rest : List Request), headIs s q rest codeBusConfig →
     ((2 ≤ byteAt q.payload 0 ∨ 2 ≤ byteAt q.payload 1 ∨ 4 ≤ byteAt q.payload 2 ∨ byteAt q.payload 3 = 0) →
       exec .busConfig s = .next (refusedAs q rest .range s)) ∧
     (∀ (g : Fin 2) (w : Fin 4) (en : Bool), byteAt q.payload 0 = g.val → byteAt q.payload 1 = (if en then 0 else 1) →
       byteAt q.payload 2 = w.val → 1 ≤ byteAt q.payload 3 →
       exec .busConfig s =
         .next (answered q.ticket .done []
           (setBus g
             { enabled := en, width := w, timeout := byteAt q.payload 3
               clockLine := { accepted := if en then s.pins.busClock[g] else true, filter := .steady }
               dataLine := { accepted := if en then s.pins.busData[g] else true, filter := .steady }
               highClean := false, highBit := false, phase := .idle, bitCount := 0, byte := 0, openRecord := none
               stuckTimer := 0, stuck := false }
             (taken rest s))))) ∧
  (∀ (s : State) (q : Request) (rest : List Request), headIs s q rest codeConsoleConfig →
     ((2 ≤ byteAt q.payload 0 ∨ 2 ≤ byteAt q.payload 1 ∨ numAt q.payload 2 2 = 0) →
       exec .consoleConfig s = .next (refusedAs q rest .range s)) ∧
     (∀ (r : Fin 2) (en : Bool), byteAt q.payload 0 = r.val → byteAt q.payload 1 = (if en then 0 else 1) →
       1 ≤ numAt q.payload 2 2 →
       exec .consoleConfig s =
         .next (answered q.ticket .done []
           (setConsole r
             { enabled := en, divisor := numAt q.payload 2 2, idleClose := byteAt q.payload 4, tickCounter := 1
               tickDue := false, rx := .waitHigh, detect := 0, ticks := 0, bits := [], openRecord := none
               idleTimer := none }
             (match s.btu.consoles[r].openRecord with
               | none => taken rest s
               | some o =>
                 produce
                   { newRecord (srcConsole r) .consoleText o.stamp (textKey o.bytes) with
                     body := o.bytes, flags := { framing := o.framing } } (taken rest s))))))

/-- R70, R71: the sample ticks that complete no frame; and a whole frame, sampled at its ticks 1 to 151, is received as its
byte at tick 152. -/
def Obligations.ConsoleTicksReceiveAFrame : Prop :=
  (∀ (s : State) (r : Fin 2) (pin : Bool) (c : Console) (u : State), c = s.btu.consoles[r] → c.enabled = true →
     c.tickDue = true → u = setConPin r pin s →
     (c.rx = .waitHigh →
       exec (.sampleTick r pin) s =
         .next (setConsole r { c with tickDue := false, rx := if pin then .hunt else .waitHigh } u)) ∧
     (c.rx = .hunt →
       exec (.sampleTick r pin) s =
         .next (setConsole r
           (if pin then { c with tickDue := false }
           else { c with tickDue := false, rx := .confirm, detect := s.tbu.base, ticks := 0, bits := [] }) u)) ∧
     (c.rx = .confirm → c.ticks + 1 < 8 →
       exec (.sampleTick r pin) s = .next (setConsole r { c with tickDue := false, ticks := c.ticks + 1 } u)) ∧
     (c.rx = .confirm → c.ticks + 1 = 8 →
       exec (.sampleTick r pin) s =
         .next (setConsole r
           (if pin then { c with tickDue := false, ticks := 8, rx := .hunt }
           else { c with tickDue := false, ticks := 8, rx := .data, idleTimer := none }) u)) ∧
     (c.rx = .data → c.ticks + 1 < 8 + 16 * (c.bits.length + 1) →
       exec (.sampleTick r pin) s = .next (setConsole r { c with tickDue := false, ticks := c.ticks + 1 } u)) ∧
     (c.rx = .data → c.ticks + 1 = 8 + 16 * (c.bits.length + 1) →
       exec (.sampleTick r pin) s =
         .next (setConsole r
           { c with
             tickDue := false, ticks := c.ticks + 1, bits := c.bits ++ [pin]
             rx := if 7 ≤ c.bits.length then .stop else .data } u)) ∧
     (c.rx = .stop → c.ticks + 1 < 152 →
       exec (.sampleTick r pin) s = .next (setConsole r { c with tickDue := false, ticks := c.ticks + 1 } u)) ∧
     (c.rx = .stop → c.ticks + 1 = 152 → pin = false → bitsToNat c.bits % 256 = 0 →
       exec (.sampleTick r pin) s =
         .next (setConsole r { c with tickDue := false, ticks := 152, rx := .breakCheck } u)) ∧
     (c.rx = .breakCheck → c.ticks + 1 < 160 → pin = false →
       exec (.sampleTick r pin) s = .next (setConsole r { c with tickDue := false, ticks := c.ticks + 1 } u))) ∧
  (∀ (x : Byte) (c d : Console) (now : Stamp), c.rx = .confirm → c.ticks = 0 → c.bits = [] →
     d = (List.range 151).foldl (fun (e : Console) k => e.moved (framePin x (k + 1)) now) c →
     d.rx = .stop ∧ d.ticks = 151 ∧ d.data = x ∧ d.detect = c.detect ∧ d.tickEffect true = .byte false .hunt)

/-- R71–R74: a byte joins the open record, which closes at a line feed or 16 bytes; breaks and the idle close. Model's
choice: a line high exactly at tick 160 completes the byte (log 14). -/
def Obligations.ConsoleBytesBreaksAndIdleClose : Prop :=
  ∀ (s : State) (r : Fin 2) (c : Console), c = s.btu.consoles[r] →
    (∀ (pin framing : Bool) (next : RxState) (x : Byte) (o : TextRecord), c.enabled = true → c.tickDue = true →
      ((c.rx = .stop ∧ c.ticks + 1 = 152 ∧ pin = true ∧ framing = false ∧ next = .hunt) ∨
        (c.rx = .stop ∧ c.ticks + 1 = 152 ∧ pin = false ∧ c.data ≠ 0 ∧ framing = true ∧ next = .waitHigh) ∨
        (c.rx = .breakCheck ∧ pin = true ∧ framing = true ∧ next = .hunt)) →
      x = BitVec.ofNat 8 (bitsToNat c.bits) →
      o = (match c.openRecord with
        | none => { stamp := c.detect, bytes := [x], framing := framing }
        | some o => { stamp := o.stamp, bytes := o.bytes ++ [x], framing := o.framing || framing }) →
      exec (.consoleByte r pin) s =
        .next
          (if x = 0x0A ∨ 16 ≤ o.bytes.length then
            produce
              { newRecord (srcConsole r) .consoleText o.stamp (textKey o.bytes) with
                body := o.bytes, flags := { framing := o.framing } }
              (setConsole r
                { c with tickDue := false, ticks := c.ticks + 1, rx := next, openRecord := none, idleTimer := none }
                (setConPin r pin s))
          else
            setConsole r
              { c with tickDue := false, ticks := c.ticks + 1, rx := next, openRecord := some o, idleTimer := some 0 }
              (setConPin r pin s))) ∧
    (c.enabled = true → c.tickDue = true → c.rx = .breakCheck → c.ticks + 1 = 160 →
      exec (.consoleBreak r) s =
        .next (produce (newRecord (srcConsole r) .consoleBreak c.detect 0)
          (closeText r
            (setConsole r { c with tickDue := false, ticks := 160, rx := .waitHigh } (setConPin r false s))))) ∧
    (∀ (o : TextRecord) (n : Nat), c.openRecord = some o → 1 ≤ c.idleClose → c.idleTimer = some n →
      12500 * c.idleClose ≤ n →
      exec (.idleClose r) s =
        .next (produce
          { newRecord (srcConsole r) .consoleText o.stamp (textKey o.bytes) with
            body := o.bytes, flags := { framing := o.framing } }
          (setConsole r { c with openRecord := none, idleTimer := none } s)))

/-! ## Records on their way, and the Match Table (chapters 1 and 5) -/

/-- R7–R9, R78, R79: placing, discarding and waiting at a holding FIFO; the rotating admission. -/
def Obligations.RecordsAreHeldAndAdmitted : Prop :=
  (∀ (s : State) (r : Record) (h : Hold), h = s.hold[r.source] →
     (h.fifo.length < 4 →
       produce r s = { s with
         hold := put s.hold r.source { h with fifo := h.fifo ++ [{ r with lost := h.lost }], lost := 0 } }) ∧
     (4 ≤ h.fifo.length → (r.kind = .scanStart ∨ r.kind = .driveStart) →
       produce r s = { s with hold := put s.hold r.source { h with waiting := h.waiting ++ [r] } }) ∧
     (4 ≤ h.fifo.length → r.kind ≠ .scanStart → r.kind ≠ .driveStart →
       ∀ u, u = { s with hold := put s.hold r.source { h with lost := min 255 (h.lost + 1) } } →
         produce r s = if h.lost = 0 then setAlert .recordLoss u else u)) ∧
  (∀ (s : State) (i : Nat) (c : Fin 33) (r : Record) (l : List Record), i < 33 →
     c.val = (s.cle.position.val + 1 + i) % 33 → s.hold[c].fifo = r :: l →
     (∀ j < i, ∀ d : Fin 33, d.val = (s.cle.position.val + 1 + j) % 33 → s.hold[d].fifo = []) →
     (64 ≤ s.cle.queue.length → exec .admission s = .next s) ∧
     (s.cle.queue.length < 64 →
       exec .admission s =
         .next { s with
           cle := { s.cle with queue := s.cle.queue ++ [r], position := c }
           hold := put s.hold c
             (match s.hold[c].waiting with
               | [] => { s.hold[c] with fifo := l }
               | g :: gs =>
                 { fifo := l ++ [{ g with lost := s.hold[c].lost }], lost := 0, waiting := gs }) }))

/-- R81, R82, R84–R88, R93, R95: the deciding entry is the matching one of lowest index, its hit is counted, its actions
follow in order, each to its block, and an ON-CLASS commit is judged last. -/
def Obligations.ClassificationFollowsTheDecidingEntry : Prop :=
  (∀ (s u : State) (r : Record) (rest : List Record) (a : Action), s.cle.queue = r :: rest →
     u = (if s.cle.commit = some .nextRecord then swapBanks { s with cle := { s.cle with queue := rest } }
       else { s with cle := { s.cle with queue := rest } }) →
     let matching (i : Fin 64) : Prop :=
       let e := u.cle.active.entries[i]
       e.valid = true ∧ e.sourceLow ≤ r.source ∧ r.source ≤ e.sourceHigh ∧ (e.kind = none ∨ e.kind = some r.kind) ∧
         r.key &&& e.keyMask = e.keyValue &&& e.keyMask
     let after (d : Fin 65) : Outcome :=
       .next (onClassCommit a (classStage a r (alertStage a (verdictStage a r (offerStage a r
         { u with cle := { u.cle with hits := put u.cle.hits d (min (2 ^ 32 - 1) (u.cle.hits[d] + 1)) } })))))
     (∀ i : Fin 64, matching i → (∀ j < i, ¬matching j) → a = u.cle.active.entries[i].action →
       exec .classifyRecord s = after ⟨i.val, by omega⟩) ∧
     ((∀ i, ¬matching i) → a = u.cle.active.dflt → exec .classifyRecord s = after 64)) ∧
  (∀ (s : State) (a : Action) (r : Record),
    (a.ring = none → offerStage a r s = s) ∧ (∀ i, a.ring = some i → offerStage a r s = offer i r a.strip s) ∧
    (r.kind ≠ .scanStart → r.kind ≠ .driveStart → verdictStage a r s = s) ∧
    (r.kind = .scanStart → verdictStage a r s = scanVerdict a.refuse s) ∧
    (r.kind = .driveStart →
      verdictStage a r s =
        if r.key.extractLsb' 27 2 = 3 then safeVerdict a.refuse s
        else lineVerdict a.refuse (r.key.extractLsb' 29 3).toFin s) ∧
    (a.alert = none → alertStage a s = s) ∧ (∀ n, a.alert = some n → alertStage a s = setAlert (.matchAlert n) s) ∧
    (a.cls = none → classStage a r s = s ∧ onClassCommit a s = s) ∧
    (∀ e, a.cls = some e → classStage a r s = deliverClass e r.stamp s ∧
      onClassCommit a s = if s.cle.commit = some (.onClass e) then swapBanks s else s))

/-- R89, R90: shadow and direct writes. Model's choice: a byte that names no value is answered RANGE (log 22). -/
def Obligations.TableWrites : Prop :=
  ∀ (s : State) (q : Request) (rest : List Request),
    (∀ (c : Instr) (code : Byte), (c = .entryWrite ∧ code = codeEntryWrite) ∨
        (c = .entryWriteDirect ∧ code = codeEntryWriteDirect) → headIs s q rest code →
      ((64 ≤ byteAt q.payload 0 ∨ 33 ≤ byteAt q.payload 2 ∨ 33 ≤ byteAt q.payload 3 ∨
          byteAt q.payload 3 < byteAt q.payload 2 ∨ (29 ≤ byteAt q.payload 4 ∧ byteAt q.payload 4 ≠ 255) ∨
          (4 ≤ byteAt q.payload 5 ∧ byteAt q.payload 5 ≠ 255) ∨ (16 ≤ byteAt q.payload 6 ∧ byteAt q.payload 6 ≠ 255) ∨
          (4 ≤ byteAt q.payload 7 ∧ byteAt q.payload 7 ≠ 255) ∨ entryAt q.payload = none) →
        exec c s = .next (refusedAs q rest .range s)) ∧
      (∀ i e, entryAt q.payload = some (i, e) →
        (s.cle.commit ≠ none → exec c s = .next (refusedAs q rest .busy s)) ∧
        (s.cle.commit = none →
          (c = .entryWrite →
            exec c s = .next (answered q.ticket .done []
              { taken rest s with
                cle := { s.cle with shadow := { s.cle.shadow with entries := put s.cle.shadow.entries i e } } })) ∧
          (s.tsq.run ≠ .idle → c = .entryWriteDirect → exec c s = .next (refusedAs q rest .state s)) ∧
          (s.tsq.run = .idle → c = .entryWriteDirect →
            exec c s = .next (answered q.ticket .done []
              { taken rest s with
                cle := { s.cle with
                  active := { s.cle.active with entries := put s.cle.active.entries i e }
                  hits := put s.cle.hits ⟨i.val, by omega⟩ 0 } }))))) ∧
    (∀ (c : Instr) (code : Byte), (c = .defaultWrite ∧ code = codeDefaultWrite) ∨
        (c = .defaultWriteDirect ∧ code = codeDefaultWriteDirect) → headIs s q rest code →
      (((4 ≤ byteAt q.payload 0 ∧ byteAt q.payload 0 ≠ 255) ∨ (16 ≤ byteAt q.payload 1 ∧ byteAt q.payload 1 ≠ 255) ∨
          (4 ≤ byteAt q.payload 2 ∧ byteAt q.payload 2 ≠ 255) ∨ actionAt q.payload 0 = none) →
        exec c s = .next (refusedAs q rest .range s)) ∧
      (∀ a, actionAt q.payload 0 = some a →
        (s.cle.commit ≠ none → exec c s = .next (refusedAs q rest .busy s)) ∧
        (s.cle.commit = none → c = .defaultWrite →
          exec c s = .next (answered q.ticket .done []
            { taken rest s with cle := { s.cle with shadow := { s.cle.shadow with dflt := a } } })) ∧
        (s.cle.commit = none → s.tsq.run ≠ .idle → c = .defaultWriteDirect →
          exec c s = .next (refusedAs q rest .state s)) ∧
        (s.cle.commit = none → s.tsq.run = .idle → c = .defaultWriteDirect →
          exec c s = .next (answered q.ticket .done []
            { taken rest s with
              cle := { s.cle with active := { s.cle.active with dflt := a }, hits := put s.cle.hits 64 0 } }))))

/-- R92, R93, R96, R97: COMMIT and COMMIT CANCEL, and what a swap does. Model's choice: a point above 2 is answered RANGE
(log 22). -/
def Obligations.CommitCancelAndSwap : Prop :=
  (∀ (s : State) (q : Request) (rest : List Request),
    (headIs s q rest codeCommit →
      ((3 ≤ byteAt q.payload 0 ∨ (byteAt q.payload 0 = 2 ∧ 16 ≤ byteAt q.payload 1)) →
        exec .commit s = .next (refusedAs q rest .range s)) ∧
      (∀ p : CommitPoint,
        ((byteAt q.payload 0 = 0 ∧ p = .nextRecord) ∨ (byteAt q.payload 0 = 1 ∧ p = .nextArm) ∨
          (byteAt q.payload 0 = 2 ∧ ∃ e : Fin 16, byteAt q.payload 1 = e.val ∧ p = .onClass e)) →
        (s.cle.commit ≠ none → exec .commit s = .next (refusedAs q rest .busy s)) ∧
        (s.cle.commit = none → ∀ u, u = { taken rest s with cle := { s.cle with commit := some p } } →
          exec .commit s =
            .next (answered q.ticket .done []
              (if p = .nextRecord ∧ s.cle.queue = [] then swapBanks u else u))))) ∧
    (headIs s q rest codeCommitCancel →
      (s.cle.commit = none → exec .commitCancel s = .next (refusedAs q rest .state s)) ∧
      (s.cle.commit ≠ none →
        exec .commitCancel s =
          .next (answered q.ticket .done [] { taken rest s with cle := { s.cle with commit := none } })))) ∧
  (∀ s : State, ∃ hits : Vector Nat 65,
    swapBanks s =
      setAlert .tableSwap
        { s with cle := { s.cle with active := s.cle.shadow, shadow := s.cle.shadow, hits := hits, commit := none } } ∧
    (∀ i : Fin 65, hits[i] = 0) ∧ (swapBanks s).slu.alerts[9].pending = true)

/-- R98: HITS READ and HITS CLEAR. -/
def Obligations.HitsReadAndClear : Prop :=
  ∀ (s : State) (q : Request) (rest : List Request),
    (headIs s q rest codeHitsRead →
      exec .hitsRead s =
        .next (answered q.ticket .done (s.cle.hits.toList.flatMap fun n => num 4 n) (taken rest s))) ∧
    (headIs s q rest codeHitsClear →
      exec .hitsClear s =
        .next (answered q.ticket .done []
          { taken rest s with cle := { s.cle with hits := Vector.replicate 65 0 } })) ∧
    (∀ d : Option (Fin 64), s.cle.hits[hitPlace d] = 2 ^ 32 - 1 → (s.cle.countHit d).hits[hitPlace d] = 2 ^ 32 - 1)

/-! ## Trigger sequencer (chapter 6) -/

/-- R94, R116, R117, R118, R139, R140: ARM, STOP and TRIGGER NOW by the run state. -/
def Obligations.ArmStopAndTriggerNow : Prop :=
  ∀ (s : State) (q : Request) (rest : List Request),
    (headIs s q rest codeArm →
      ((s.tsq.run = .armed ∨ s.tsq.run = .triggered) → exec .arm s = .next (refusedAs q rest .state s)) ∧
      ((s.tsq.run = .idle ∨ s.tsq.run = .done) → ∀ u,
        u = (if s.cle.commit = some .nextArm then swapBanks (taken rest s) else taken rest s) →
        ∃ (counters : Vector Counter 4) (rings : Vector Ring 4),
          exec .arm s =
            .next (answered q.ticket .done []
              { u with
                tsq :=
                  { run := .armed, level := 0, levels := s.tsq.levels, counters := counters, stamp := none, cause := none
                    post := Vector.replicate 4 none }
                cst := { s.cst with rings := rings } }) ∧
          (∀ c : Fin 4, counters[c] =
            { s.tsq.counters[c] with count := 0, staged := none, running := s.tsq.counters[c].runAtArm }) ∧
          (∀ i : Fin 4, rings[i] =
            if s.cst.rings[i].mode = .window then { emptyRing s.cst.rings[i] with state := .running }
            else s.cst.rings[i]))) ∧
    (headIs s q rest codeStop →
      ∃ (counters : Vector Counter 4) (rings : Vector Ring 4),
        exec .stop s =
          .next (answered q.ticket .done []
            { taken rest s with
              tsq := { s.tsq with run := .idle, counters := counters }
              cst := { s.cst with rings := rings } }) ∧
        (∀ c : Fin 4, counters[c] =
          if s.tsq.run = .armed then { s.tsq.counters[c] with running := false } else s.tsq.counters[c]) ∧
        (∀ i : Fin 4, rings[i] =
          if s.cst.rings[i].mode = .window ∧
              (((s.tsq.run = .armed ∨ s.tsq.run = .triggered) ∧ s.cst.rings[i].state = .running) ∨
                (s.tsq.run = .triggered ∧ s.cst.rings[i].state = .post)) then
            { s.cst.rings[i] with state := .frozen, stopped := true }
          else s.cst.rings[i])) ∧
    (headIs s q rest codeTriggerNow →
      (s.tsq.run ≠ .armed → exec .triggerNow s = .next (refusedAs q rest .state s)) ∧
      (s.tsq.run = .armed →
        exec .triggerNow s =
          .next (answered q.ticket .done []
            (triggerRun s.tbu.base { level := s.tsq.level, branch := none, cls := none } (taken rest s)))))

/-- R119–R121, R130, R131, R135, R136: the trigger sequence, and what it writes into a RUNNING ring: older groups removed
for the room, a MARK if due, the TRIG entry with its delta and cause, its position, and post written 0. -/
def Obligations.TriggerSequence : Prop :=
  (∀ (s t : State) (v : Stamp) (cause : Cause), t = triggerRun v cause s →
    t.tsq.stamp = some v ∧ t.tsq.cause = some cause ∧ t.tsq.level = s.tsq.level ∧ t.tsq.levels = s.tsq.levels ∧
    (∀ c : Fin 4, t.tsq.counters[c] = { s.tsq.counters[c] with running := false }) ∧
    (∀ i : Fin 4, t.cst.rings[i] =
      if s.cst.rings[i].mode = .window ∧ s.cst.rings[i].state = .running then s.cst.rings[i].trigger v cause
      else s.cst.rings[i]) ∧
    (∀ i : Fin 4, t.tsq.post[i] =
      if s.cst.rings[i].mode = .window ∧ s.cst.rings[i].state = .running then some (s.cst.rings[i].post == 0) else none) ∧
    (∀ i : Fin 4, (s.cst.rings[i].trigger v cause).state = if s.cst.rings[i].post = 0 then .frozen else .post) ∧
    t.slu.alerts[0].pending = true ∧
    ((∀ i : Fin 4, s.cst.rings[i].mode = .window → s.cst.rings[i].state = .running → s.cst.rings[i].post = 0) →
      t.tsq.run = .done ∧ t.slu.alerts[1].pending = true) ∧
    (∀ i : Fin 4, s.cst.rings[i].mode = .window → s.cst.rings[i].state = .running → s.cst.rings[i].post ≠ 0 →
      t.tsq.run = .triggered ∧ t.slu.alerts[1] = s.slu.alerts[1]) ∧
    t.hold = s.hold ∧ t.dcu = s.dcu ∧ t.sce = s.sce ∧ t.cle = s.cle ∧ t.tbu = s.tbu ∧ t.stu = s.stu ∧ t.rmu = s.rmu ∧
    t.btu = s.btu) ∧
  (∀ (r w : Ring) (v : Stamp) (cause : Cause), r.sound → r.placed → r.mode = .window → r.state = .running →
    w = r.trigger v cause →
    keepsYoungest r { w with trig := none } v (fun d => .trig d cause) ∧ w.sound ∧
    w = { r with
      entries := w.entries, reference := w.reference, head := w.head, markDue := false, sinceMark := w.sinceMark
      trig := some (w.entries.length - 1), written := 0, state := if r.post = 0 then .frozen else .post })

/-- R101, R109, R110, R112: a delivered class and a tick count, match and are compared, in ARMED only. -/
def Obligations.ClassesAndTicksCountAndMatch : Prop :=
  ∀ (s : State) (src : CounterSource) (counters : Vector Counter 4) (noted : List (Fin 4)),
    (∀ c : Fin 4, counters[c] =
      if s.tsq.counters[c].running = true ∧ s.tsq.counters[c].source = src then
        { s.tsq.counters[c] with count := s.tsq.counters[c].count + 1 }
      else s.tsq.counters[c]) →
    noted = (List.finRange 4).filter (fun c =>
      s.tsq.counters[c].running && s.tsq.counters[c].source == src && counters[c].count == counters[c].compare) →
    (∀ e at_, src = .cls e →
      deliverClass e at_ s =
        if s.tsq.run = .armed then
          forEach noted (handleMatch at_) (compareClass ⟨e.val, by omega⟩ at_
            { s with tsq := { s.tsq with counters := counters } })
        else s) ∧
    (src = .tick → s.tbu.tickDue = true →
      exec .tick s =
        .next (if s.tsq.run = .armed then
          forEach noted (handleMatch s.tbu.base)
            { s with tbu := { s.tbu with tickDue := false }, tsq := { s.tsq with counters := counters } }
        else { s with tbu := { s.tbu with tickDue := false } })) ∧
    (∀ (c : Fin 4) (at_ : Stamp) (x : Counter) (u : State), x = s.tsq.counters[c] →
      u = { s with
        tsq :=
          { s.tsq with
            counters := put s.tsq.counters c
              { x with count := 0, compare := (match x.staged with | some v => v | none => x.compare), staged := none } } } →
      handleMatch at_ c s = if s.tsq.run = .armed then compareClass ⟨16 + c.val, by omega⟩ at_ u else u)

/-- R103–R108: branch A is compared before B and at most one is taken; its actions in order, what each does, and then its
next. -/
def Obligations.BranchesAreTakenInOrder : Prop :=
  ∀ (s : State) (k : Fin 20) (v : Stamp) (l : Level), l = s.tsq.levels[s.tsq.level] →
    (l.a.enabled = true → l.a.cls = k →
      compareClass k v s = takeBranch l.a { level := s.tsq.level, branch := some .a, cls := some k } v s) ∧
    (¬(l.a.enabled = true ∧ l.a.cls = k) → l.b.enabled = true → l.b.cls = k →
      compareClass k v s = takeBranch l.b { level := s.tsq.level, branch := some .b, cls := some k } v s) ∧
    (¬(l.a.enabled = true ∧ l.a.cls = k) → ¬(l.b.enabled = true ∧ l.b.cls = k) → compareClass k v s = s) ∧
    (∀ (b : Branch) (cause : Cause) (u : State), u = b.actions.foldl (fun t x => branchAction x t) s →
      (∀ n, b.next = .level n → takeBranch b cause v s = { u with tsq := { u.tsq with level := n } }) ∧
      (b.next = .stay → takeBranch b cause v s = u) ∧
      (b.next = .trigger → takeBranch b cause v s = triggerRun v cause u)) ∧
    (∀ (c : Fin 4) (x : Counter), x = s.tsq.counters[c] →
      branchAction (.startCounter c) s =
        { s with tsq := { s.tsq with counters := put s.tsq.counters c { x with running := true } } } ∧
      branchAction (.stopCounter c) s =
        { s with tsq := { s.tsq with counters := put s.tsq.counters c { x with running := false } } } ∧
      branchAction (.clearCounter c) s =
        { s with tsq := { s.tsq with counters := put s.tsq.counters c { x with count := 0 } } }) ∧
    (∀ n, branchAction (.injectScan n) s = injectScan n s) ∧
    (∀ d w, branchAction (.pressLine d w) s = sequencerPress d w s) ∧
    branchAction .enterSafe s = takeSafeRequest none s ∧
    branchAction .seqAlert s = setAlert .seqAlert s

/-- R102, R113, R114: LEVEL WRITE, COUNTER CONFIG and COMPARE WRITE. Model's choice: a byte that names no value is
answered RANGE (log 22). -/
def Obligations.SequencerSettings : Prop :=
  ∀ (s : State) (q : Request) (rest : List Request),
    (headIs s q rest codeLevelWrite →
      (8 ≤ byteAt q.payload 0 → exec .levelWrite s = .next (refusedAs q rest .range s)) ∧
      ((20 ≤ byteAt q.payload 2 ∨ 10 ≤ byteAt q.payload 3 ∨ 3 ≤ byteAt q.payload 4 ∨ 20 ≤ byteAt q.payload 14 ∨
          10 ≤ byteAt q.payload 15 ∨ 3 ≤ byteAt q.payload 16 ∨ levelAt q.payload = none) →
        exec .levelWrite s = .next (refusedAs q rest .range s)) ∧
      (∀ l x, levelAt q.payload = some (l, x) →
        ((s.tsq.run = .armed ∨ s.tsq.run = .triggered) → exec .levelWrite s = .next (refusedAs q rest .state s)) ∧
        ((s.tsq.run = .idle ∨ s.tsq.run = .done) →
          exec .levelWrite s =
            .next (answered q.ticket .done []
              { taken rest s with tsq := { s.tsq with levels := put s.tsq.levels l x } })))) ∧
    (headIs s q rest codeCounterConfig →
      ((4 ≤ byteAt q.payload 0 ∨ 17 ≤ byteAt q.payload 1 ∨ 2 ≤ byteAt q.payload 2 ∨ 2 ≤ byteAt q.payload 3) →
        exec .counterConfig s = .next (refusedAs q rest .range s)) ∧
      (∀ (c : Fin 4) (src : CounterSource) (run : Bool) (w : WriteMode) (x : Counter), byteAt q.payload 0 = c.val →
        x = s.tsq.counters[c] →
        ((byteAt q.payload 1 = 16 ∧ src = .tick) ∨ ∃ e : Fin 16, byteAt q.payload 1 = e.val ∧ src = .cls e) →
        byteAt q.payload 2 = (if run then 1 else 0) →
        byteAt q.payload 3 = (match w with | .direct => 0 | .staged => 1) →
        ((s.tsq.run = .armed ∨ s.tsq.run = .triggered) → exec .counterConfig s = .next (refusedAs q rest .state s)) ∧
        ((s.tsq.run = .idle ∨ s.tsq.run = .done) →
          exec .counterConfig s =
            .next (answered q.ticket .done []
              { taken rest s with
                tsq :=
                  { s.tsq with
                    counters := put s.tsq.counters c
                      { x with
                        source := src, runAtArm := run, writeMode := w
                        staged := if w = .direct then none else x.staged } } })))) ∧
    (headIs s q rest codeCompareWrite →
      ((4 ≤ byteAt q.payload 0 ∨ BitVec.ofNat 32 (numAt q.payload 1 4) = 0) →
        exec .compareWrite s = .next (refusedAs q rest .range s)) ∧
      (∀ (c : Fin 4) (v : Word) (x y : Counter), byteAt q.payload 0 = c.val →
        v = BitVec.ofNat 32 (numAt q.payload 1 4) → v ≠ 0 → x = s.tsq.counters[c] →
        y = (if x.running = true ∧ x.writeMode = .staged then { x with staged := some v }
          else { x with compare := v, staged := none }) →
        exec .compareWrite s =
          .next (answered q.ticket .done
            (num 4 y.compare.toNat ++
              (match y.staged with
                | none => [0, 0, 0, 0, 0]
                | some w => 1 :: num 4 w.toNat))
            { taken rest s with tsq := { s.tsq with counters := put s.tsq.counters c y } })))

/-! ## Capture rings (chapter 7) -/

/-- R125, R127, R141: memory ready (commanded at any time, log 6), RING CONFIG, RING START and RING STOP. -/
def Obligations.RingRequestsAllocateStartAndStop : Prop :=
  (∀ s : State, exec .memoryReady s = .next { s with cst := { s.cst with ready := true } } ∧
     ∀ (q : Request) (rest : List Request), headIs s q rest codeRingConfig →
       (s.cst.ready = false → exec .ringConfig s = .next (refusedAs q rest .notReady s)) ∧
       (s.cst.ready = true →
         ((4 ≤ byteAt q.payload 0 ∨ 3 ≤ byteAt q.payload 1 ∨ 16777215 < numAt q.payload 6 4 ∨ 4 ≤ byteAt q.payload 10) →
           exec .ringConfig s = .next (refusedAs q rest .range s)) ∧
         (∀ (i : Fin 4) (mode : RingMode) (base size : Nat) (r : Ring) (bad state busy : Prop),
           byteAt q.payload 0 = i.val → byteAt q.payload 1 = mode.num → base = numAt q.payload 2 2 →
           size = numAt q.payload 4 2 → numAt q.payload 6 4 ≤ 16777215 → byteAt q.payload 10 ≤ 3 → r = s.cst.rings[i] →
           bad = (mode ≠ .off ∧ (size = 0 ∨ 8191 < base ∨ 8192 < base + size ∨
             ∃ j : Fin 4, j ≠ i ∧ s.cst.rings[j].mode ≠ .off ∧ base < s.cst.rings[j].base + s.cst.rings[j].size ∧
               s.cst.rings[j].base < base + size)) →
           state = (r.state = .running ∨ r.state = .post ∨ r.state = .streaming) →
           busy = ((r.mode = .window ∨ mode = .window) ∧ (s.tsq.run = .armed ∨ s.tsq.run = .triggered)) →
           (bad → exec .ringConfig s = .next (refusedAs q rest .range s)) ∧
           (¬bad → (state ∨ busy) → exec .ringConfig s = .next (refusedAs q rest .state s)) ∧
           (¬bad → ¬state → ¬busy →
             exec .ringConfig s =
               .next (answered q.ticket .done []
                 (setRing i
                   (emptyRing
                     { r with
                       mode := mode, post := numAt q.payload 6 4, priority := byteAt q.payload 10
                       base := if mode = .off then 0 else base, size := if mode = .off then 0 else size
                       state := if mode = .off then .disabled else .ready })
                   (taken rest s))))))) ∧
  (∀ (s : State) (q : Request) (rest : List Request),
     (headIs s q rest codeRingStart →
       (s.cst.ready = false → exec .ringStart s = .next (refusedAs q rest .notReady s)) ∧
       (s.cst.ready = true → 4 ≤ byteAt q.payload 0 → exec .ringStart s = .next (refusedAs q rest .range s)) ∧
       (∀ i : Fin 4, s.cst.ready = true → byteAt q.payload 0 = i.val →
         (s.cst.rings[i].mode = .stream → s.cst.rings[i].state = .ready →
           exec .ringStart s =
             .next (answered q.ticket .done [] (setRing i { s.cst.rings[i] with state := .streaming } (taken rest s)))) ∧
         ((s.cst.rings[i].mode ≠ .stream ∨ s.cst.rings[i].state ≠ .ready) →
           exec .ringStart s = .next (refusedAs q rest .state s)))) ∧
     (headIs s q rest codeRingStop →
       (s.cst.ready = false → exec .ringStop s = .next (refusedAs q rest .notReady s)) ∧
       (s.cst.ready = true → 4 ≤ byteAt q.payload 0 → exec .ringStop s = .next (refusedAs q rest .range s)) ∧
       (∀ i : Fin 4, s.cst.ready = true → byteAt q.payload 0 = i.val →
         (s.cst.rings[i].mode = .stream → s.cst.rings[i].state = .streaming →
           exec .ringStop s =
             .next (answered q.ticket .done []
               (setRing i
                 { s.cst.rings[i] with
                   state := .ready, entries := [], reference := none, head := none, markDue := false, sinceMark := 0
                   dropped := 0 }
                 (taken rest s)))) ∧
         (s.cst.rings[i].mode = .stream → s.cst.rings[i].state ≠ .streaming →
           exec .ringStop s = .next (answered q.ticket .done [] (taken rest s))) ∧
         (s.cst.rings[i].mode ≠ .stream → exec .ringStop s = .next (refusedAs q rest .state s)))))

/-- R121, R130, R131, R134, R142, R143: a capture offer by the ring's mode and state; the write of an entry after a MARK
if one is due; a STREAM ring's GAP, its whole write, its drops and RING-GAP; the notice of a ring that freezes. -/
def Obligations.OffersAreWrittenDroppedOrDiscarded : Prop :=
  (∀ (s : State) (i : Fin 4) (r : Record) (strip : Bool) (g : Ring) (e : Int → Entry), g = s.cst.rings[i] → g.placed →
    e = (fun d => .ordinary r.source r.kind r.flags r.origin d r.lost r.key (if strip then [] else r.body)) →
    ((g.mode = .off ∨ g.state = .ready ∨ g.state = .frozen) → offer i r strip s = s) ∧
    (g.mode = .window → (g.state = .running ∨ g.state = .post) →
      ∀ w frozen, (w, frozen) = g.offerWindow r.stamp e →
        offer i r strip s = if frozen = true then frozenNotice i (setRing i w s) else setRing i w s) ∧
    (g.state = .streaming → ∀ gap w : Ring,
      gap = { g.write r.stamp (fun d => .gap d g.dropped) with dropped := 0 } →
      w = (if g.dropped = 0 then g.write r.stamp e else gap.write r.stamp e) →
      (wordsOf w.entries ≤ g.capacity → offer i r strip s = setRing i w s) ∧
      (g.capacity < wordsOf w.entries →
        (g.dropped = 0 → offer i r strip s = setAlert .ringGap (setRing i { g with dropped := 1 } s)) ∧
        (1 ≤ g.dropped →
          offer i r strip s = setRing i { g with dropped := min (2 ^ 32 - 1) (g.dropped + 1) } s)))) ∧
  (∀ (r : Ring) (v : Stamp) (e : Int → Entry) (due : Prop),
    due = (r.entries = [] ∨ r.markDue = true ∨ 64 ≤ r.sinceMark ∨
      ∀ ref, r.reference = some ref → (v - ref).toInt < -8388608 ∨ 8388607 < (v - ref).toInt) →
    (due → r.write v e =
      { r with
        entries := r.entries ++ [.mark v, e 0], reference := some v, markDue := false, sinceMark := 1
        head := if r.entries = [] then some v else r.head }) ∧
    (∀ ref, r.reference = some ref → ¬due → r.write v e =
      { r with entries := r.entries ++ [e (v - ref).toInt], sinceMark := r.sinceMark + 1 })) ∧
  (∀ (s u : State) (i : Fin 4),
    u = { s with tsq := { s.tsq with post := put s.tsq.post i (s.tsq.post[i].map fun _ => true) } } →
    ((s.tsq.run ≠ .triggered ∨ ∃ j : Fin 4, u.tsq.post[j] = some false) → frozenNotice i s = u) ∧
    (s.tsq.run = .triggered → (∀ j : Fin 4, u.tsq.post[j] ≠ some false) →
      frozenNotice i s = setAlert .done { u with tsq := { u.tsq with run := .done } }))

/-- R130, R135, R137, R138: a WINDOW ring keeps the youngest entries, counts its post entries, and never goes past its
capacity. -/
def Obligations.WindowRingKeepsTheYoungest : Prop :=
  ∀ (r w : Ring) (v : Stamp) (e : Int → Entry) (frozen : Bool), r.sound → r.placed → r.mode = .window →
    (∀ d d', (e d).words = (e d').words ∧ (e d).words ≤ 7 ∧ (e d).isMark = false ∧ (e d).delta = d) →
    (w, frozen) = r.offerWindow v e →
    w.sound ∧ w.placed ∧ w.mode = .window ∧ w.size = r.size ∧
    (r.state = .running → frozen = false ∧ w.state = .running ∧ keepsYoungest r w v e ∧
      (r.occupancy + 10 ≤ r.capacity → ∃ m, w.entries = r.entries ++ m)) ∧
    (r.state = .post →
      (frozen = false → w.state = .post ∧ w.written = r.written + 1 ∧ w.written < r.post ∧ keepsYoungest r w v e) ∧
      (frozen = true → w.state = .frozen ∧
        ((w.truncated = true ∧ w.written = r.written ∧ (∃ k, w.entries = r.entries.drop k) ∧ w.trigOldest = true ∧
            w.capacity < w.occupancy + (e 0).words + (if r.needsMark v then 3 else 0)) ∨
          (w.truncated = r.truncated ∧ w.written = r.written + 1 ∧ r.post ≤ w.written ∧ keepsYoungest r w v e))))

/-! ## Scan engine (chapter 8) -/

/-- R153, R154, 8.1: from the tracked state, the clocks of a scan bring the port to the scan's end state, shift its
bits in the shift state of its register and nowhere else, and a TAP-RESET brings any port to IDLE. -/
def Obligations.ScanPathsBringThePortToTheEndState : Prop :=
  (∀ (c : Scan) (t : TapState), validScan c → t ≠ .unknown →
    (portOf t).run (scanPlan c t) = portOf c.endState ∧
    (scanPlan c t).filterMap (·.out) = c.out ∧
    (c.kind = .drScan → shiftsRight .shiftDr (portOf t) (scanPlan c t)) ∧
    (c.kind = .irScan → shiftsRight .shiftIr (portOf t) (scanPlan c t)) ∧
    (c.kind = .drScan → t = .idle → c.pause = false → (scanPlan c t).length = c.length + 5) ∧
    (c.kind = .irScan → t = .idle → c.pause = false → (scanPlan c t).length = c.length + 6)) ∧
  (∀ (c : Scan) (p : Port) (t : TapState), validScan c → c.kind = .tapReset → p.run (scanPlan c t) = .idle)

/-- R165, R166: an IMMEDIATE abort taken at any clock of a scan still brings the port to the state the engine then
tracks: the pause state of the register, RESET or IDLE if the scan is stopped, its own end state if it runs on. A TAP-RESET
does so from every state of the port, the tracked state UNKNOWN included. -/
def Obligations.AbortedScanLeavesThePortWhereTracked : Prop :=
  (∀ (c : Scan) (t : TapState) (a : List TckClock) (k : TckClock) (b : List TckClock), validScan c → t ≠ .unknown →
    scanPlan c t = a ++ k :: b →
    ((abortPlan k b).1 = .aborting ∨ (abortPlan k b).2.2 = true →
      (portOf t).run (a ++ k :: (abortPlan k b).2.1) = portOf c.abortState) ∧
    ((abortPlan k b).1 = .shift → (abortPlan k b).2.2 = false →
      (portOf t).run (a ++ k :: (abortPlan k b).2.1) = portOf c.endState)) ∧
  (∀ (c : Scan) (p : Port) (t : TapState) (a : List TckClock) (k : TckClock) (b : List TckClock), validScan c →
    c.kind = .tapReset → scanPlan c t = a ++ k :: b →
    (abortPlan k b).1 = .shift ∧ ((abortPlan k b).2.2 = true ↔ a.length ≤ 4) ∧
    p.run (a ++ k :: (abortPlan k b).2.1) = if a.length ≤ 4 then .reset else .idle)

/-- R150, R151, R165, R166: the edges of a TCK clock on the core clock, RCLK following them, the TDO bit kept, and the
clocks an IMMEDIATE abort leaves when the clock in progress completes; after the last clock the engine waits for RCLK to
follow its falling edge as after every edge. Model's choices: TDI on a clock that shifts no bit
is a free value (log 11), a scan's first clock waits for no RCLK (log 17), and a rise of RCLK is an edge a clock check
counts (log 24). -/
def Obligations.TckEdgesFollowTheRate : Prop :=
  (∀ (s : State) (r : Running) (k : TckClock) (rest : List TckClock) (tdo rclk : Bool) (half : Nat) (kept : Running),
    s.sce.running = some r → r.plan = k :: rest → (s.sce.phase = .shift ∨ s.sce.phase = .aborting) →
    half = 2 ^ (s.sce.rate.val + 1) → kept = (if k.out.isSome then { r with tdo := r.tdo ++ [tdo] } else r) →
    (s.sce.followed = true → (s.sce.tck = true ∨ s.sce.edgeClocks + 1 < half) →
      s.sce.tickClock rclk tdo = { s.sce with edgeClocks := s.sce.edgeClocks + 1 }) ∧
    (s.sce.followed = true → s.sce.tck = false → half ≤ s.sce.edgeClocks + 1 →
      s.sce.tickClock rclk tdo =
        { s.sce with
          tck := true, edgeClocks := 0, followed := decide (s.sce.timeout = 0)
          running := some (if s.sce.timeout = 0 then kept else r) }) ∧
    (s.sce.followed = false → rclk ≠ s.sce.tck →
      s.sce.tickClock rclk tdo = { s.sce with edgeClocks := s.sce.edgeClocks + 1 }) ∧
    (s.sce.followed = false → rclk = true → s.sce.tck = true →
      s.sce.tickClock rclk tdo =
        { s.sce with edgeClocks := s.sce.edgeClocks + 1, followed := true, running := some kept }) ∧
    (s.sce.followed = false → rclk = false → s.sce.tck = false → s.sce.edgeClocks + 1 < half →
      s.sce.tickClock rclk tdo = { s.sce with edgeClocks := s.sce.edgeClocks + 1, followed := true }) ∧
    (s.sce.followed = false → rclk = false → s.sce.tck = false → half ≤ s.sce.edgeClocks + 1 →
      s.sce.tickClock rclk tdo =
        { s.sce with
          tck := true, edgeClocks := 0, followed := decide (s.sce.timeout = 0)
          running := some (if s.sce.timeout = 0 then kept else r) }) ∧
    (∀ (r1 : Running) (f1 : Bool) (v : State),
      f1 = (s.sce.followed || rclk == s.sce.tck) →
      r1 = (if s.sce.followed = false ∧ rclk = true ∧ s.sce.tck = true then kept else r) →
      v = { s with
        pins := { s.pins with rclk := rclk, tdo := tdo }
        stu :=
          { s.stu with
            check := s.stu.check.count 0 0 (if s.pins.rclk = false ∧ rclk = true then 1 else 0) }
        sce := { s.sce with followed := f1, running := some r1 } } →
      (¬(f1 = true ∧ half ≤ s.sce.edgeClocks) → exec (.tckClock rclk tdo) s = .next v) ∧
      (s.sce.tck = false → f1 = true → half ≤ s.sce.edgeClocks →
        exec (.tckClock rclk tdo) s =
          .next { v with
            sce :=
              { s.sce with
                tck := true, edgeClocks := 0, followed := decide (s.sce.timeout = 0)
                running := some (if s.sce.timeout = 0 then kept else r) } }) ∧
      (s.sce.tck = true → f1 = true → half ≤ s.sce.edgeClocks →
        ∀ (phase : ScanPhase) (plan : List TckClock) (short : Bool) (u : State),
          (phase, plan, short) =
            (if r.abortTaken = true ∧ s.sce.phase = .shift ∧ r.stoppedShort = false then abortPlan k rest
            else (s.sce.phase, rest, r.stoppedShort)) →
          u = { v with
            sce :=
              { s.sce with
                phase := phase, tck := false, edgeClocks := 0, followed := decide (s.sce.timeout = 0)
                running := some { r1 with plan := plan, stoppedShort := short } } } →
          exec (.tckClock rclk tdo) s =
            .next (match plan with
              | [] => u
              | n :: _ =>
                { u with
                  free := match n.out with
                    | some _ => s.free
                    | none => s.free + 1
                  sce := { u.sce with tms := n.tms, tdi := match n.out with
                    | some b => b
                    | none => Config.freeTdi s.free } })))) ∧
  (∀ (s : State) (r : Running) (tdo rclk : Bool) (f1 : Bool), s.sce.running = some r → r.plan = [] →
    (s.sce.phase = .shift ∨ s.sce.phase = .aborting) → f1 = (s.sce.followed || rclk == s.sce.tck) →
    s.sce.tickClock rclk tdo = { s.sce with edgeClocks := s.sce.edgeClocks + 1, followed := f1 } ∧
    exec (.tckClock rclk tdo) s =
      .next { s with
        pins := { s.pins with rclk := rclk, tdo := tdo }
        stu :=
          { s.stu with
            check := s.stu.check.count 0 0 (if s.pins.rclk = false ∧ rclk = true then 1 else 0) }
        sce := { s.sce with followed := f1 } })

/-- R155, R157–R159, R166 (its first row): SCAN SUBMIT's checks, the start of a scan by a FREE engine, the starts that
fail, and the verdict on a scan in GUARD. Model's readings: a TAP-RESET of a length other than 0 is RANGE (log 26), TDI
on a first clock that shifts no bit is a free value (log 11), and that clock waits for no RCLK (log 17). -/
def Obligations.ScanSubmitStartAndVerdict : Prop :=
  (∀ (s : State) (q : Request) (rest : List Request), headIs s q rest codeScanSubmit →
    (8 ≤ s.sce.queue.length → exec .scanSubmit s = .next (refusedAs q rest .full s)) ∧
    (s.sce.queue.length < 8 → s.sce.tracked = .unknown → byteAt q.payload 0 ≠ 2 →
      exec .scanSubmit s = .next (refusedAs q rest .state s)) ∧
    (s.sce.queue.length < 8 → (s.sce.tracked ≠ .unknown ∨ byteAt q.payload 0 = 2) →
      (scanAt q.payload 0 = none → exec .scanSubmit s = .next (refusedAs q rest .range s)) ∧
      ∀ c, scanAt q.payload 0 = some c →
        exec .scanSubmit s =
          .next (arbitrate
            { taken rest s with
              sce := { s.sce with queue := s.sce.queue ++ [{ ticket := q.ticket, scan := c }] } }))) ∧
  (∀ (p : List Byte) (i : Nat) (c : Scan), scanAt p i = some c → validScan c) ∧
  (∀ s : State, s.sce.phase ≠ .free → arbitrate s = s) ∧
  (∀ s : State, (∀ n : Fin 4, s.sce.slots[n].state ≠ .queued) → s.sce.queue = [] → arbitrate s = s) ∧
  (∀ (s : State) (c : Scan), s.sce.phase = .free → (s.sce.tracked ≠ .unknown ∨ c.kind = .tapReset) →
    (∀ i, s.sce.powerLane = some i → s.stu.lanes[i].accepted = s.sce.powerLevel) →
    (∀ n : Fin 4, s.sce.slots[n].state = .queued → s.sce.slots[n].scan = some c →
      (∀ m < n, s.sce.slots[m].state ≠ .queued) →
      arbitrate s =
        produce { newRecord 30 .scanStart s.tbu.base (scanKey .none c) with origin := some .sequencer }
          { s with
            sce :=
              { s.sce with
                slots := put s.sce.slots n { s.sce.slots[n] with state := .running }, phase := .guard
                running := some
                  { scan := c, origin := .slot n, tdo := [], abortTaken := false, stoppedShort := false
                    plan := [] } } }) ∧
    (∀ (t : Ticket) (l : List StationScan), (∀ n : Fin 4, s.sce.slots[n].state ≠ .queued) →
      s.sce.queue = { ticket := t, scan := c } :: l →
      arbitrate s =
        produce { newRecord 30 .scanStart s.tbu.base (scanKey .none c) with origin := some .station }
          { s with
            sce :=
              { s.sce with
                queue := l, phase := .guard
                running := some
                  { scan := c, origin := .station t, tdo := [], abortTaken := false, stoppedShort := false
                    plan := [] } } })) ∧
  (∀ (s : State) (c : Scan) (f : Status × ScanReason) (away : Prop),
    away = (∃ i, s.sce.powerLane = some i ∧ s.stu.lanes[i].accepted ≠ s.sce.powerLevel) →
    ((away ∧ f = (.noPower, .noPower)) ∨
      (¬away ∧ s.sce.tracked = .unknown ∧ c.kind ≠ .tapReset ∧ f = (.state, .aborted))) → s.sce.phase = .free →
    (∀ n : Fin 4, s.sce.slots[n].state = .queued → s.sce.slots[n].scan = some c →
      (∀ m < n, s.sce.slots[m].state ≠ .queued) →
      arbitrate s =
        arbitrate (failUndriven (.slot n) c f
          { s with
            sce := { s.sce with slots := put s.sce.slots n { s.sce.slots[n] with state := .running } } })) ∧
    (∀ (t : Ticket) (l : List StationScan), (∀ n : Fin 4, s.sce.slots[n].state ≠ .queued) →
      s.sce.queue = { ticket := t, scan := c } :: l →
      arbitrate s = arbitrate (failUndriven (.station t) c f { s with sce := { s.sce with queue := l } }))) ∧
  (∀ (s : State) (o : ScanOrigin) (c : Scan) (st : Status) (why : ScanReason) (u : State),
    u = produce (newRecord 30 .scanFail s.tbu.base (scanKey why c))
      { s with sce := { s.sce with phase := .free, running := none, tck := false } } →
    failUndriven o c (st, why) s =
      match o with
      | .station t => answered t st [0, 0] u
      | .slot n =>
        { u with
          sce :=
            { u.sce with
              slots := put s.sce.slots n
                { s.sce.slots[n] with
                  state := if st = .done then .done else if st = .aborted then .aborted else .failed
                  result := some { outcome := st, tdo := [] } } } }) ∧
  (∀ (s : State) (refused : Bool), s.sce.phase ≠ .guard → scanVerdict refused s = s) ∧
  (∀ (s : State) (r : Running) (refused : Bool) (away : Prop), s.sce.phase = .guard → s.sce.running = some r →
    away = (∃ i, s.sce.powerLane = some i ∧ s.stu.lanes[i].accepted ≠ s.sce.powerLevel) →
    (r.abortTaken = true →
      scanVerdict refused s = arbitrate (failUndriven r.origin r.scan (.aborted, .aborted) s)) ∧
    (r.abortTaken = false → refused = true →
      scanVerdict refused s = arbitrate (failUndriven r.origin r.scan (.guarded, .guarded) s)) ∧
    (r.abortTaken = false → refused = false → away →
      scanVerdict refused s = arbitrate (failUndriven r.origin r.scan (.noPower, .noPower) s)) ∧
    (r.abortTaken = false → refused = false → ¬away → s.sce.tracked = .unknown → r.scan.kind ≠ .tapReset →
      scanVerdict refused s = arbitrate (failUndriven r.origin r.scan (.state, .aborted) s)) ∧
    (r.abortTaken = false → refused = false → ¬away → (s.sce.tracked ≠ .unknown ∨ r.scan.kind = .tapReset) →
      ∀ k l, scanPlan r.scan s.sce.tracked = k :: l →
        scanVerdict refused s =
          { s with
            free := match k.out with
              | some _ => s.free
              | none => s.free + 1
            sce :=
              { s.sce with
                phase := .shift, running := some { r with plan := k :: l }, tck := false, tms := k.tms
                tdi := match k.out with
                  | some b => b
                  | none => Config.freeTdi s.free
                edgeClocks := 0, followed := true } }))

/-- R151, R160–R163, R165, R166: the ends of a scan that has driven clocks, the return-clock timeout and the loss of
the scan power lane, also when it is taken before a completion of the same clock. A scan ends once RCLK has followed its
last falling edge, and the timeout runs out after that edge as after any (model's reading: log 17). Model's choices: an end row
that is not due changes nothing (log 3), and a flushed slot's result has the outcome ABORTED (log 35). -/
def Obligations.ScanEndsAndFaults : Prop :=
  (∀ (s : State) (r : Running), s.sce.running = some r → r.plan = [] →
     let ended (kind : Kind) (why : ScanReason) (st : Status) (tracked : TapState) : Outcome :=
       let u := produce
         { newRecord 30 kind s.tbu.base (scanKey why r.scan) with
           body := (packBits r.tdo).take 16, flags := { truncated := decide (128 < r.tdo.length) } }
         { s with sce := { s.sce with phase := .free, running := none, tck := false, tracked := tracked, tdi := true } }
       .next (arbitrate
         (match r.origin with
           | .station t => answered t st (num 2 r.tdo.length ++ packBits r.tdo) u
           | .slot n =>
             { u with
               sce :=
                 { u.sce with
                   slots := put s.sce.slots n
                     { s.sce.slots[n] with
                       state := if st = .done then .done else if st = .aborted then .aborted else .failed
                       result := some { outcome := st, tdo := r.tdo } } } }))
     (s.sce.followed = false → exec .scanComplete s = .next s ∧ exec .abortPauseReached s = .next s) ∧
     (s.sce.followed = true → s.sce.phase = .shift → r.stoppedShort = false →
       exec .scanComplete s = ended .scanDone .none .done r.scan.endState) ∧
     (s.sce.followed = true → (s.sce.phase = .aborting ∨ (s.sce.phase = .shift ∧ r.stoppedShort = true)) →
       exec .abortPauseReached s = ended .scanFail .aborted .aborted
         (match r.scan.kind with
           | .irScan => .pauseIr
           | .drScan => .pauseDr
           | .tapReset => .reset
           | .idleClocks => .idle))) ∧
  (∀ s : State,
     ((s.sce.phase = .shift ∨ s.sce.phase = .aborting) →
       (1 ≤ s.sce.timeout → s.sce.followed = false → 125 * s.sce.timeout ≤ s.sce.edgeClocks →
         exec .returnClockTimeout s = .next (scanFault .timeout .timeout s)) ∧
       ((s.sce.timeout = 0 ∨ s.sce.followed = true ∨ s.sce.edgeClocks < 125 * s.sce.timeout) →
         exec .returnClockTimeout s = .next s)) ∧
     (∀ i, s.sce.powerLane = some i → (s.sce.phase = .shift ∨ s.sce.phase = .aborting) →
       scanPowerEdge i (!s.sce.powerLevel) s = scanFault .noPower .noPower s) ∧
     (s.sce.phase = .free →
       exec .scanComplete s = .next s ∧ exec .abortPauseReached s = .next s ∧ exec .returnClockTimeout s = .next s) ∧
     (∀ (r : Running) (st : Status) (why : ScanReason) (t : State), s.sce.running = some r → t = scanFault st why s →
       t.sce.phase = .free ∧ t.sce.running = none ∧ t.sce.tck = false ∧ t.sce.tms = s.sce.tms ∧ t.sce.tdi = s.sce.tdi ∧
       t.sce.tracked = .unknown ∧ t.sce.queue = [] ∧ (∀ n : Fin 4, t.sce.slots[n].state ≠ .queued) ∧
       (∀ n : Fin 4, t.sce.slots[n] =
         if r.origin = .slot n then
           { s.sce.slots[n] with
             state := if st = .done then .done else if st = .aborted then .aborted else .failed
             result := some { outcome := st, tdo := r.tdo } }
         else if s.sce.slots[n].state = .queued then
           { s.sce.slots[n] with state := .aborted, result := some { outcome := .aborted, tdo := [] } }
         else s.sce.slots[n]) ∧
       t.slu.alerts[4].pending = true ∧
       t.slu.responses = s.slu.responses ++
         (match r.origin with
           | .station q => [{ ticket := q, status := st, payload := num 2 r.tdo.length ++ packBits r.tdo }]
           | .slot _ => []) ++
         s.sce.queue.map (fun q => { ticket := q.ticket, status := .aborted, payload := [0, 0] }) ∧
       t.hold[srcScan] = s.hold[srcScan].accept
         { newRecord 30 .scanFail s.tbu.base (scanKey why r.scan) with
           body := (packBits r.tdo).take 16, flags := { truncated := decide (128 < r.tdo.length) } } ∧
       t.stu = s.stu ∧ t.dcu = s.dcu ∧ t.tsq = s.tsq ∧ t.cst = s.cst ∧ t.cle = s.cle) ∧
     (∀ i, s.sce.powerLane = some i → (s.sce.phase = .free ∨ s.sce.phase = .guard) →
       scanPowerEdge i (!s.sce.powerLevel) s = { s with sce := { s.sce with tracked := .unknown } }) ∧
     (∀ i, scanPowerEdge i s.sce.powerLevel s = s) ∧
     (∀ i level, s.sce.powerLane ≠ some i → scanPowerEdge i level s = s))

/-- R152, R156, R164–R168: both modes of SCAN ABORT, SCAN CONFIG, SLOT LOAD and the injection of a slot. Model's choices:
the count of flushed scans is one byte (log 10), a mode above 1 is answered RANGE (log 22), and a flushed slot's result
has the outcome ABORTED (log 35). -/
def Obligations.ScanAbortConfigAndSlots : Prop :=
  (∀ (s : State) (q : Request) (rest : List Request), headIs s q rest codeScanAbort →
     (2 ≤ byteAt q.payload 0 → exec .scanAbortBoundary s = .next (refusedAs q rest .range s) ∧
       exec .scanAbortImmediate s = .next (refusedAs q rest .range s)) ∧
     (byteAt q.payload 0 = 0 →
       exec .scanAbortBoundary s =
         .next (answered q.ticket .done (num 1 s.sce.waiting) (flush (taken rest s)))) ∧
     (byteAt q.payload 0 = 1 →
       ∃ u, u = flush (taken rest s) ∧
         exec .scanAbortImmediate s =
           .next (answered q.ticket .done (num 1 s.sce.waiting)
             { u with
               sce := { u.sce with running := s.sce.running.map fun r => { r with abortTaken := true } } })) ∧
     (∀ t, t = flush s →
       t.sce.queue = [] ∧ t.sce.running = s.sce.running ∧ t.sce.phase = s.sce.phase ∧ t.sce.tracked = s.sce.tracked ∧
       t.hold = s.hold ∧ t.slu.alerts = s.slu.alerts ∧
       t.slu.responses = s.slu.responses ++
         s.sce.queue.map (fun q => { ticket := q.ticket, status := .aborted, payload := [0, 0] }) ∧
       ∀ n : Fin 4, t.sce.slots[n] =
         if s.sce.slots[n].state = .queued then
           { s.sce.slots[n] with state := .aborted, result := some { outcome := .aborted, tdo := [] } }
         else s.sce.slots[n])) ∧
  (∀ (s : State) (q : Request) (rest : List Request),
     (headIs s q rest codeScanConfig →
       ((8 ≤ byteAt q.payload 0 ∨ (16 ≤ byteAt q.payload 2 ∧ byteAt q.payload 2 ≠ 255) ∨ 2 ≤ byteAt q.payload 3) →
         exec .scanConfig s = .next (refusedAs q rest .range s)) ∧
       (∀ (k : Fin 8) (lane : Option (Fin 16)) (level : Bool), byteAt q.payload 0 = k.val →
         byteAt q.payload 2 = (match lane with | none => 255 | some i => i.val) →
         byteAt q.payload 3 = (if level then 1 else 0) →
         ((s.sce.phase ≠ .free ∨ s.sce.queue ≠ [] ∨ ∃ i, lane = some i ∧ s.stu.lanes[i].mode = .off) →
           exec .scanConfig s = .next (refusedAs q rest .state s)) ∧
         (s.sce.phase = .free → s.sce.queue = [] → (∀ i, lane = some i → s.stu.lanes[i].mode = .sense) →
           exec .scanConfig s =
             .next (answered q.ticket .done []
               { taken rest s with
                 sce :=
                   { s.sce with
                     rate := k, timeout := byteAt q.payload 1, powerLane := lane, powerLevel := level } })))) ∧
     (headIs s q rest codeSlotLoad →
       ((4 ≤ byteAt q.payload 0 ∨ scanAt q.payload 1 = none) → exec .slotLoad s = .next (refusedAs q rest .range s)) ∧
       (∀ (n : Fin 4) (c : Scan), byteAt q.payload 0 = n.val → scanAt q.payload 1 = some c →
         ((s.sce.slots[n].state = .queued ∨ s.sce.slots[n].state = .running) →
           exec .slotLoad s = .next (refusedAs q rest .busy s)) ∧
         (s.sce.slots[n].state ≠ .queued → s.sce.slots[n].state ≠ .running →
           exec .slotLoad s =
             .next (answered q.ticket .done []
               { taken rest s with
                 sce :=
                   { s.sce with
                     slots := put s.sce.slots n { state := .loaded, scan := some c, result := none } } })))) ∧
     (∀ n : Fin 4,
       ((s.sce.slots[n].state = .empty ∨ s.sce.slots[n].state = .queued ∨ s.sce.slots[n].state = .running) →
         injectScan n s = s) ∧
       ((s.sce.slots[n].state = .loaded ∨ s.sce.slots[n].state = .done ∨ s.sce.slots[n].state = .failed ∨
           s.sce.slots[n].state = .aborted) →
         injectScan n s =
           arbitrate
             { s with
               sce :=
                 { s.sce with
                   slots := put s.sce.slots n { s.sce.slots[n] with state := .queued, result := none } } })))

/-! ## Board control lines (chapter 9) -/

/-- R176, R179, R181, R184: the table of line requests, for LINE SET assert, LINE PRESS and the sequencer's PRESS-LINE,
which gets no response; and the sequencer's ENTER-SAFE. -/
def Obligations.LineRequestsByModeAndState : Prop :=
  (∀ (s : State) (q : Request) (rest : List Request) (d : Fin 8) (r : LineRequest) (c : Instr),
     ((c = .lineSetAssert ∧ headIs s q rest codeLineSet ∧ byteAt q.payload 1 = 0 ∧
         r = { ticket := some q.ticket, action := .assert, width := 0 }) ∨
       (c = .linePress ∧ headIs s q rest codeLinePress ∧
         r = { ticket := some q.ticket, action := .press
               width := if numAt q.payload 1 2 = 0 then 1 else numAt q.payload 1 2 })) →
     (8 ≤ byteAt q.payload 0 → exec c s = .next (refusedAs q rest .range s)) ∧
     (byteAt q.payload 0 = d.val → ∀ (u : State) (l : Line), u = taken rest s → l = s.dcu.lines[d] →
       let refused (why : DriveReason) (st : Status) : Outcome :=
         .next (answered q.ticket st []
           (produce (newRecord 31 .driveRefused s.tbu.base (driveKey d r.action why r.width)) u))
       (s.dcu.mode = .hold → exec c s = refused .state .state) ∧
       (s.dcu.mode = .safe → exec c s = refused .safe .safe) ∧
       (s.dcu.mode = .normal → l.guarded ≠ none → exec c s = refused .busy .busy) ∧
       (s.dcu.mode = .normal → l.guarded = none →
         (l.state = .released →
           exec c s =
             .next (produce
               { newRecord 31 .driveStart s.tbu.base (driveKey d r.action .none r.width) with origin := some .station }
               { u with
                 dcu :=
                   { s.dcu with
                     lines := put s.dcu.lines d { l with guarded := some { request := r, withdrawn := false } } } })) ∧
         (l.state = .asserted → r.action = .assert → exec c s = .next (answered q.ticket .done [] u)) ∧
         (l.state = .asserted → r.action = .press → exec c s = refused .state .state) ∧
         (∀ w e, l.state = .pressing w e → r.action = .assert → exec c s = refused .state .state) ∧
         (∀ w e, l.state = .pressing w e → r.action = .press →
           exec c s =
             .next (answered q.ticket .done (num 2 r.width)
               { u with
                 dcu :=
                   { s.dcu with
                     lines := put s.dcu.lines d
                       { l with state := .pressing r.width (s.clock + 125000 * r.width) } } })) ∧
         (∀ p e, l.state = .deferred p e → exec c s = refused .busy .busy)))) ∧
  (∀ (s : State) (d : Fin 8) (w : Nat) (r : LineRequest) (l : Line),
    r = { ticket := none, action := .press, width := if w = 0 then 1 else w } → l = s.dcu.lines[d] →
    let refused (why : DriveReason) : State :=
      produce (newRecord 31 .driveRefused s.tbu.base (driveKey d .press why r.width)) s
    (s.dcu.mode = .hold → sequencerPress d w s = refused .state) ∧
    (s.dcu.mode = .safe → sequencerPress d w s = refused .safe) ∧
    (s.dcu.mode = .normal → l.guarded ≠ none → sequencerPress d w s = refused .busy) ∧
    (s.dcu.mode = .normal → l.guarded = none →
      (l.state = .released →
        sequencerPress d w s =
          produce
            { newRecord 31 .driveStart s.tbu.base (driveKey d .press .none r.width) with origin := some .sequencer }
            { s with
              dcu :=
                { s.dcu with
                  lines := put s.dcu.lines d { l with guarded := some { request := r, withdrawn := false } } } }) ∧
      (l.state = .asserted → sequencerPress d w s = refused .state) ∧
      (∀ v e, l.state = .pressing v e →
        sequencerPress d w s =
          { s with
            dcu :=
              { s.dcu with
                lines := put s.dcu.lines d
                  { l with state := .pressing r.width (s.clock + 125000 * r.width) } } }) ∧
      (∀ p e, l.state = .deferred p e → sequencerPress d w s = refused .busy))) ∧
  (∀ s : State,
    ((s.dcu.mode = .safe ∨ none ∈ s.dcu.safeGuard) → takeSafeRequest none s = s) ∧
    (s.dcu.mode ≠ .safe → none ∉ s.dcu.safeGuard →
      takeSafeRequest none s =
        produce { newRecord 31 .driveStart s.tbu.base (driveKey 0 .safe .none 0) with origin := some .sequencer }
          { s with dcu := { s.dcu with safeGuard := s.dcu.safeGuard ++ [none] } }))

/-- R175, R177: the guard verdict on a line's request. Model's reading: R177 holds as it is written also for a line that
SAFE made ASSERTED while its request was in guard, which is then driven again, deferred, or left ASSERTED by a refusal
(log 15); deferred, it keeps its last release (log 42). -/
def Obligations.LineVerdictChecksModeInterlockAndGap : Prop :=
  ∀ (s : State) (d : Fin 8) (refused : Bool) (g : Guarded) (r : LineRequest) (u : State) (l : Line),
    l = s.dcu.lines[d] → l.guarded = some g → r = g.request →
    u = { s with dcu := { s.dcu with lines := put s.dcu.lines d { l with guarded := none } } } →
    ∀ refusal : DriveReason → State,
      (∀ why, refusal why =
        respondTo r.ticket why.status []
          (produce (newRecord 31 .driveRefused s.tbu.base (driveKey d r.action why r.width)) u)) →
      (g.withdrawn = true → lineVerdict refused d s = respondTo r.ticket .aborted [] u) ∧
      (g.withdrawn = false → refused = true → lineVerdict refused d s = refusal .guarded) ∧
      (g.withdrawn = false → refused = false →
        (s.dcu.mode = .safe → lineVerdict refused d s = refusal .safe) ∧
        (s.dcu.mode = .hold → lineVerdict refused d s = refusal .state) ∧
        (s.dcu.mode = .normal →
          (∀ p gap, s.dcu.partner d = some (p, gap) → s.dcu.lines[p].state.active = true →
            lineVerdict refused d s = refusal .interlock) ∧
          (∀ p gap m, s.dcu.partner d = some (p, gap) → s.dcu.lines[p].state.active = false →
            s.dcu.lines[p].lastRelease = some m → s.clock < m.clock + 125000 * gap →
            lineVerdict refused d s = moveLine d (.deferred r (m.clock + 125000 * gap)) u) ∧
          ((s.dcu.partner d = none ∨ ∃ p gap, s.dcu.partner d = some (p, gap) ∧
              s.dcu.lines[p].state.active = false ∧
              (∀ m, s.dcu.lines[p].lastRelease = some m → m.clock + 125000 * gap ≤ s.clock)) →
            lineVerdict refused d s =
              respondTo r.ticket .done (if r.action = .press then num 2 r.width else [])
                (moveLine d
                  (if r.action = .press then .pressing r.width (s.clock + 125000 * r.width) else .asserted)
                  (produce (newRecord 31 .driveAssert s.tbu.base (driveKey d r.action .none r.width)) u)))))

/-- R176, R178–R180: the end of a press, the expiry of a deferral, and LINE SET release. Model's choices: a row whose moment
has not come changes nothing (log 3), and a level above 1 is answered RANGE by both LINE SET rows (log 22). -/
def Obligations.PressEndDeferralExpiryAndRelease : Prop :=
  (∀ (s : State) (d : Fin 8),
     (∀ w e, s.dcu.lines[d].state = .pressing w e → e ≤ s.clock →
       exec (.pressEnd d) s =
         .next (moveLine d .released (produce (newRecord 31 .drivePressEnd s.tbu.base (driveKey d .press .none w)) s))) ∧
     (∀ r e, s.dcu.lines[d].state = .deferred r e → e ≤ s.clock →
       (∀ p gap, s.dcu.partner d = some (p, gap) → s.dcu.lines[p].state.active = true →
         exec (.deferralExpiry d) s =
           .next (moveLine d .released
             (respondTo r.ticket .interlock []
               (produce (newRecord 31 .driveRefused s.tbu.base (driveKey d r.action .interlock r.width)) s)))) ∧
       (∀ p gap m, s.dcu.partner d = some (p, gap) → s.dcu.lines[p].state.active = false →
         s.dcu.lines[p].lastRelease = some m → s.clock < m.clock + 125000 * gap →
         exec (.deferralExpiry d) s = .next (moveLine d (.deferred r (m.clock + 125000 * gap)) s)) ∧
       ((s.dcu.partner d = none ∨ ∃ p gap, s.dcu.partner d = some (p, gap) ∧ s.dcu.lines[p].state.active = false ∧
           (∀ m, s.dcu.lines[p].lastRelease = some m → m.clock + 125000 * gap ≤ s.clock)) →
         exec (.deferralExpiry d) s =
           .next (respondTo r.ticket .done (if r.action = .press then num 2 r.width else [])
             (moveLine d (if r.action = .press then .pressing r.width (s.clock + 125000 * r.width) else .asserted)
               (produce (newRecord 31 .driveAssert s.tbu.base (driveKey d r.action .none r.width)) s))))) ∧
     (∀ w e, s.dcu.lines[d].state = .pressing w e → s.clock < e → exec (.pressEnd d) s = .next s) ∧
     (∀ r e, s.dcu.lines[d].state = .deferred r e → s.clock < e → exec (.deferralExpiry d) s = .next s)) ∧
  (∀ (s : State) (q : Request) (rest : List Request), headIs s q rest codeLineSet →
     (2 ≤ byteAt q.payload 1 → exec .lineSetRelease s = .next (refusedAs q rest .range s) ∧
       exec .lineSetAssert s = .next (refusedAs q rest .range s)) ∧
     (byteAt q.payload 1 = 1 →
       (8 ≤ byteAt q.payload 0 → exec .lineSetRelease s = .next (refusedAs q rest .range s)) ∧
       (∀ (d : Fin 8) (u : State) (l : Line), byteAt q.payload 0 = d.val → u = taken rest s → l = s.dcu.lines[d] →
         (∀ why st, (s.dcu.mode = .hold ∧ why = .state ∧ st = .state) ∨ (s.dcu.mode = .safe ∧ why = .safe ∧ st = .safe) →
           exec .lineSetRelease s =
             .next (answered q.ticket st []
               (produce (newRecord 31 .driveRefused s.tbu.base (driveKey d .release why 0)) u))) ∧
         (s.dcu.mode = .normal →
           (l.state.active = true →
             exec .lineSetRelease s =
               .next (answered q.ticket .done []
                 (moveLine d .released
                   (produce (newRecord 31 .driveRelease s.tbu.base (driveKey d .release .none 0)) u)))) ∧
           (∀ r e, l.state = .deferred r e →
             exec .lineSetRelease s =
               .next (answered q.ticket .done []
                 (respondTo r.ticket .aborted []
                   { u with dcu := { s.dcu with lines := put s.dcu.lines d { l with state := .released } } }))) ∧
           (l.state = .released →
             exec .lineSetRelease s =
               .next (answered q.ticket .done []
                 { u with
                   dcu :=
                     { s.dcu with
                       lines := put s.dcu.lines d
                         { l with guarded := l.guarded.map fun g => { g with withdrawn := true } } } }))))))

/-- R50, R174, R175, R184, R185: LINE CONFIG, PAIR CONFIG, MODE SET, and the verdict on a guarded SAFE request.
Model's choices: the safe level ASSERTED is 0 (log 8), and a byte that names no value is answered RANGE (log 22). -/
def Obligations.LineConfigPairConfigAndModeSet : Prop :=
  (∀ (s : State) (q : Request) (rest : List Request),
     (headIs s q rest codeLineConfig →
       ((8 ≤ byteAt q.payload 0 ∨ 2 ≤ byteAt q.payload 1 ∨ 1000 < numAt q.payload 3 2) →
         exec .lineConfig s = .next (refusedAs q rest .range s)) ∧
       (∀ (d : Fin 8) (level : Bool), byteAt q.payload 0 = d.val → byteAt q.payload 1 = (if level then 0 else 1) →
         numAt q.payload 3 2 ≤ 1000 → ∀ clash : Prop,
         clash = (level = true ∧ ∃ p gap, s.dcu.partner d = some (p, gap) ∧ s.dcu.lines[p].safeAsserted = true) →
         (clash → exec .lineConfig s = .next (refusedAs q rest .range s)) ∧
         (¬clash → s.dcu.mode = .safe → exec .lineConfig s = .next (refusedAs q rest .state s)) ∧
         (¬clash → s.dcu.mode ≠ .safe →
           exec .lineConfig s =
             .next (answered q.ticket .done []
               { taken rest s with
                 dcu :=
                   { s.dcu with
                     lines := put s.dcu.lines d
                       { s.dcu.lines[d] with
                         safeAsserted := level, mask := BitVec.ofNat 8 (byteAt q.payload 2)
                         interval := numAt q.payload 3 2 } } })))) ∧
     (headIs s q rest codePairConfig →
       (2 ≤ byteAt q.payload 1 → exec .pairConfig s = .next (refusedAs q rest .range s) ∧
         exec .pairConfigClear s = .next (refusedAs q rest .range s)) ∧
       (byteAt q.payload 1 = 1 →
         (4 ≤ byteAt q.payload 0 → exec .pairConfigClear s = .next (refusedAs q rest .range s)) ∧
         (∀ n : Fin 4, byteAt q.payload 0 = n.val →
           exec .pairConfigClear s =
             .next (answered q.ticket .done []
               { taken rest s with dcu := { s.dcu with pairs := put s.dcu.pairs n none } }))) ∧
       (byteAt q.payload 1 = 0 →
         ((4 ≤ byteAt q.payload 0 ∨ 8 ≤ byteAt q.payload 2 ∨ 8 ≤ byteAt q.payload 3) →
           exec .pairConfig s = .next (refusedAs q rest .range s)) ∧
         (∀ (n : Fin 4) (a b : Fin 8), byteAt q.payload 0 = n.val → byteAt q.payload 2 = a.val →
           byteAt q.payload 3 = b.val → ∀ bad : Prop,
           bad = (a = b ∨ (∃ m : Fin 4, m ≠ n ∧ ∃ p, s.dcu.pairs[m] = some p ∧ (p.has a ∨ p.has b)) ∨
             (s.dcu.lines[a].safeAsserted = true ∧ s.dcu.lines[b].safeAsserted = true) ∨
             (s.dcu.lines[a].state.active = true ∧ s.dcu.lines[b].state.active = true)) →
           (bad → exec .pairConfig s = .next (refusedAs q rest .range s)) ∧
           (¬bad →
             exec .pairConfig s =
               .next (answered q.ticket .done []
                 { taken rest s with
                   dcu := { s.dcu with pairs := put s.dcu.pairs n (some { a, b, gap := byteAt q.payload 4 }) } })))))) ∧
  (∀ (s : State) (q : Request) (rest : List Request), headIs s q rest codeModeSet →
     (3 ≤ byteAt q.payload 0 → exec .modeSetNormal s = .next (refusedAs q rest .range s) ∧
       exec .modeSetHold s = .next (refusedAs q rest .range s) ∧
       exec .modeSetSafe s = .next (refusedAs q rest .range s)) ∧
     (∀ (c : Instr) (m : DriveMode), (c = .modeSetNormal ∧ byteAt q.payload 0 = 0 ∧ m = .normal) ∨
         (c = .modeSetHold ∧ byteAt q.payload 0 = 1 ∧ m = .hold) → ∀ held : Prop,
       held = (∃ x : Fin 8, s.rmu.channels[x].protect = true ∧ s.rmu.channels[x].tripped = true) →
       (s.dcu.mode = .safe → held → exec c s = .next (refusedAs q rest .state s)) ∧
       (s.dcu.mode ≠ .safe ∨ ¬held →
         exec c s = .next (answered q.ticket .done [] { taken rest s with dcu := { s.dcu with mode := m } }))) ∧
     (byteAt q.payload 0 = 2 →
       (s.dcu.mode = .safe → exec .modeSetSafe s = .next (answered q.ticket .done [] (taken rest s))) ∧
       (s.dcu.mode ≠ .safe →
         exec .modeSetSafe s =
           .next (produce
             { newRecord 31 .driveStart s.tbu.base (driveKey 0 .safe .none 0) with origin := some .station }
             { taken rest s with dcu := { s.dcu with safeGuard := s.dcu.safeGuard ++ [some q.ticket] } }))) ∧
     (∀ (t : Option Ticket) (l : List (Option Ticket)) (u : State), s.dcu.safeGuard = t :: l →
       u = { s with dcu := { s.dcu with safeGuard := l } } →
       safeVerdict true s =
         respondTo t .guarded [] (produce (newRecord 31 .driveRefused s.tbu.base (driveKey 0 .safe .guarded 0)) u) ∧
       safeVerdict false s = respondTo t .done [] (enterSafe u)))

/-! ## Station link (chapter 10) -/

/-- R188, R189, R191–R193: what becomes of an arriving frame. That none is accepted while the link is down is R193, read
as in log 19. -/
def Obligations.FrameArrivalAcceptsAndChecks : Prop :=
  ∀ (s : State) (f : Frame) (accepted : Prop),
    accepted = (f.checkGood = true ∧ s.pins.linkDown = false ∧
      (f.dst = 0x024A50540000 + s.slu.fixture.setWidth 48 ∨
        (f.dst = 0xFFFFFFFFFFFF ∧ f.payload.getD 4 0 = 0x01)) ∧
      f.etherType = 0x9A17 ∧ 8 ≤ f.payload.length ∧ byteAt f.payload 1 = 1 ∧ s.slu.owed.length < 64) →
    (¬accepted → exec (.frameArrival f) s = .next s) ∧
    (accepted → ∀ (q : Ticket) (u : State) (n : Nat) (bad : Prop),
      q = { id := s.slu.accepted, src := f.src, tag := BitVec.ofNat 16 (numAt f.payload 2 2), code := f.payload.getD 4 0 } →
      u = { s with
        slu :=
          { s.slu with
            owed := s.slu.owed ++ [{ ticket := q, answered := false }], station := some f.src
            accepted := s.slu.accepted + 1 } } →
      n = numAt f.payload 6 2 →
      bad = (byteAt f.payload 0 ≠ 1 ∨ 1492 < n ∨ f.payload.length < 8 + n ∨
        ∀ form ∈ requestForms, form.code = q.code → ¬(form.least ≤ n ∧ n ≤ form.most)) →
      (bad → exec (.frameArrival f) s = .next (answered q .bad [] u)) ∧
      (¬bad → 8 ≤ s.slu.ingress.length → exec (.frameArrival f) s = .next (answered q .full [] u)) ∧
      (¬bad → s.slu.ingress.length < 8 →
        exec (.frameArrival f) s =
          .next { u with
            slu :=
              { u.slu with
                ingress := s.slu.ingress ++ [{ ticket := q, payload := (f.payload.drop 8).take n }] } }))

/-- R144, R145, R191, R193, R194, R197: responses first, then a due alert frame, then an export frame, from the STREAMING
ring of highest priority and then lowest number that holds an entry; one frame at a time. The list of an alert frame is
the pending sources of level above M, by level and then number; an export takes the longest prefix of whole entries that
fits, as RING READ does. Model's choices: FRAME_SENT
with nothing being sent changes nothing (log 3), the link may form an export frame before it begins it (log 18), a frame
begun waits while the link is down (log 19), an empty announcement ends the step (log 20), a ring that an export empties
keeps its head reference (log 29), and alert and export frames carry the part address of their forming (log 39). -/
def Obligations.EgressSendsInOrder : Prop :=
  (∀ u : Slu,
    (∀ i : Fin 16, i ∈ u.announced ↔ u.alerts[i].pending = true ∧ u.mask < u.alerts[i].level ∧ u.alerts[i].level ≤ 7) ∧
    u.announced.Pairwise fun i j =>
      u.alerts[j].level < u.alerts[i].level ∨ (u.alerts[j].level = u.alerts[i].level ∧ i < j)) ∧
  (∀ (words most : Nat) (es l : List Entry), l = takeFit words most es →
    l <+: es ∧ l.length ≤ most ∧ wordsOf l ≤ words ∧
    ∀ m, m <+: es → m.length ≤ most → wordsOf m ≤ words → m.length ≤ l.length) ∧
  (∀ s : State,
    (∀ qualifies : Fin 4 → Prop,
      qualifies = (fun i => s.cst.rings[i].state = .streaming ∧ s.cst.rings[i].entries ≠ []) →
      (s.cst.exportRing = none ↔ ∀ i, ¬qualifies i) ∧
      (∀ i, s.cst.exportRing = some i ↔
        qualifies i ∧ ∀ j, qualifies j →
          s.cst.rings[j].priority < s.cst.rings[i].priority ∨
            (s.cst.rings[j].priority = s.cst.rings[i].priority ∧ i ≤ j))) ∧
    (∀ down, exec (.linkDown down) s = .next { s with pins := { s.pins with linkDown := down } }) ∧
    ((s.slu.sending ≠ none ∨ s.pins.linkDown = true) → ∀ b, exec (.linkEgress b) s = .next s) ∧
    (s.slu.sending = none → s.pins.linkDown = false →
      (∀ r l, s.slu.responses = r :: l →
        exec (.linkEgress false) s = .next s ∧
        exec (.linkEgress true) s =
          .next { s with
            slu :=
              { s.slu with
                responses := l
                sending := some
                  { dst := r.ticket.src, src := s.slu.address
                    payload := benchFrame 2 r.ticket.tag r.ticket.code r.status.num r.payload
                    answers := some r.ticket.id } } }) ∧
      (s.slu.responses = [] → s.slu.station = none → ∀ b, exec (.linkEgress b) s = .next s) ∧
      (∀ a, s.slu.responses = [] → s.slu.station = some a → s.slu.due = true →
        exec (.linkEgress false) s = .next s ∧
        (s.slu.announced = [] → exec (.linkEgress true) s = .next { s with slu := { s.slu with due := false } }) ∧
        (s.slu.announced ≠ [] →
          exec (.linkEgress true) s =
            .next { s with
              slu :=
                { s.slu with
                  due := false, alertCount := s.slu.alertCount + 1
                  sending := some
                    { dst := a, src := s.slu.address
                      payload := benchFrame 4 s.slu.alertCount 0 0
                        (num 1 s.slu.announced.length ++
                          s.slu.announced.flatMap fun i => num 1 (i.val + 1) ++ num 1 s.slu.alerts[i].level)
                      answers := none } } })) ∧
      (∀ a f, s.slu.responses = [] → s.slu.station = some a → s.slu.due = false → s.slu.formed = some f →
        exec (.linkEgress false) s = .next s ∧
        exec (.linkEgress true) s = .next { s with slu := { s.slu with sending := some f, formed := none } }) ∧
      (∀ a, s.slu.responses = [] → s.slu.station = some a → s.slu.due = false → s.slu.formed = none →
        (s.cst.exportRing = none → ∀ b, exec (.linkEgress b) s = .next s) ∧
        (∀ (i : Fin 4) (r : Ring) (l : List Entry) (f : OutFrame), s.cst.exportRing = some i → r = s.cst.rings[i] →
          l = takeFit 369 r.entries.length r.entries →
          f = { dst := a, src := s.slu.address
                payload := benchFrame 3 s.slu.exportCount 0 0
                  (num 1 i.val ++ num 1 l.length ++ num 6 (r.head.getD 0).toNat ++ num 4 0 ++ num 4 0 ++ entryBytes l)
                answers := none } →
          ∀ t, t = setRing i
              { r with
                entries := r.entries.drop l.length
                head := match lastMark l with
                  | some m => some m
                  | none => r.head } s →
            exec (.linkEgress true) s =
              .next { t with
                slu := { s.slu with sending := some f, formed := none, exportCount := s.slu.exportCount + 1 } } ∧
            exec (.linkEgress false) s =
              .next { t with
                slu := { s.slu with formed := some f, exportCount := s.slu.exportCount + 1 } }))) ∧
    ((s.slu.sending = none ∨ s.pins.linkDown = true) → exec .frameSent s = .next s) ∧
    (∀ f, s.slu.sending = some f → s.pins.linkDown = false →
      exec .frameSent s =
        .next { s with
          slu :=
            { s.slu with
              sending := none
              owed := s.slu.owed.filter fun o => decide (some o.ticket.id ≠ f.answers) } }))

/-- R195–R199: alerts set, configured, listed and cleared. -/
def Obligations.AlertsPendAnnounceAndClear : Prop :=
  (∀ (s : State) (a : AlertSource) (i : Fin 16), i = a.index →
    setAlert a s =
      { s with
        slu :=
          { s.slu with
            alerts := put s.slu.alerts i { s.slu.alerts[i] with pending := true }
            due := s.slu.due || decide (s.slu.alerts[i].pending = false ∧ s.slu.mask < s.slu.alerts[i].level) } }) ∧
  (∀ (s : State) (q : Request) (rest : List Request), headIs s q rest codeAlertConfig →
    ((∃ i ≤ 16, 8 ≤ byteAt q.payload i) → exec .alertConfig s = .next (refusedAs q rest .range s)) ∧
    ((∀ i ≤ 16, byteAt q.payload i ≤ 7) → ∀ (m : Nat), m = min 6 (byteAt q.payload 16) →
      ∃ (alerts : Vector Alert 16) (due : Bool),
        exec .alertConfig s =
          .next (answered q.ticket .done
            (((List.range 16).flatMap fun i => num 1 (byteAt q.payload i)) ++ num 1 m)
            { s with slu := { s.slu with ingress := rest, alerts := alerts, mask := m, due := due } }) ∧
        (∀ i : Fin 16, alerts[i] = { s.slu.alerts[i] with level := byteAt q.payload i.val }) ∧
        (due = true ↔ s.slu.due = true ∨ (m < s.slu.mask ∧ ∃ i : Fin 16, s.slu.alerts[i].pending = true ∧
          m < byteAt q.payload i.val ∧ byteAt q.payload i.val ≤ s.slu.mask)))) ∧
  (∀ (s : State) (q : Request) (rest : List Request), headIs s q rest codeAlertClear →
    ∃ (alerts : Vector Alert 16),
      exec .alertClear s =
        .next (answered q.ticket .done (num 2 (setToNat (alerts.toList.map (·.pending))))
          { s with slu := { s.slu with ingress := rest, alerts := alerts } }) ∧
      (∀ i : Fin 16, alerts[i] =
        if (numAt q.payload 0 2).testBit i.val then { s.slu.alerts[i] with pending := false } else s.slu.alerts[i])) ∧
  (∀ (s : State) (q : Request) (rest : List Request), headIs s q rest codeAlertNext →
    (∀ i : Fin 16, s.slu.alerts[i].level ≤ 7) →
    ((∀ i : Fin 16, s.slu.alerts[i].pending = false) →
      exec .alertNext s = .next (answered q.ticket .done [0, 0, 0] (taken rest s))) ∧
    (∀ i : Fin 16, s.slu.alerts[i].pending = true →
      (∀ j : Fin 16, s.slu.alerts[j].pending = true →
        s.slu.alerts[j].level < s.slu.alerts[i].level ∨ (s.slu.alerts[j].level = s.slu.alerts[i].level ∧ i ≤ j)) →
      exec .alertNext s =
        .next (answered q.ticket .done
          (num 1 (i.val + 1) ++ num 1 s.slu.alerts[i].level ++
            num 1 ((List.finRange 16).filter fun j => s.slu.alerts[j].pending).length)
          (taken rest s))))

/-- R201, R202 and the reset rule of each chapter: SOFT RESET answers what is outstanding, then every block resets.
Model's choices: the pins stay (log 5), and the model's own fields and the values no rule gives (log 21). -/
def Obligations.SoftResetAnswersAndResets : Prop :=
  ∀ (s : State) (q : Request) (rest : List Request), headIs s q rest codeSoftReset →
    ∃ owed : List Owed,
      exec .softReset s =
        .next { State.reset with
          pending := s.pending, clock := s.clock, free := s.free, pins := s.pins
          cst := { State.reset.cst with ready := s.cst.ready, initClocks := s.cst.initClocks }
          slu :=
            { Slu.reset s.pins.straps with
              owed := owed, sending := s.slu.sending, accepted := s.slu.accepted
              responses := s.slu.responses ++
                ((s.slu.owed.filter fun o => !o.answered && o.ticket.id != q.ticket.id).map fun o =>
                  { ticket := o.ticket, status := .aborted, payload := [] }) ++
                [{ ticket := q.ticket, status := .done, payload := [] }] } } ∧
      owed.map (·.ticket) = s.slu.owed.map (·.ticket) ∧
      (∀ o ∈ owed, o.ticket.id ∈ s.slu.owed.map (·.ticket.id) ∧ o.answered = true)

/-- R10, R19, R29, R38, R41, R58, R69, R77, R100, R124, R125, R149, R171, R187, R202: power-on reset. Model's choices:
the waiting commands, the pins and the free values stay, and the values no rule gives (log 21, 32). -/
def Obligations.PowerOnResetSetsEveryBlock : Prop :=
  ∀ (straps : BitVec 4) (s : State), ∃ t, exec (.powerOnReset straps) s = .next t ∧
    t.pending = s.pending ∧ t.pins = { s.pins with straps := straps } ∧ t.clock = 0 ∧ t.free = s.free ∧
    t.tbu = { base := 0, period := 1000, trim := 0, framePeriod := 1, frameClock := 1, divider := 1, tickDue := false
              armed := none } ∧
    (∀ i : Fin 33, t.hold[i] = { fifo := [], lost := 0, waiting := [] }) ∧
    (∀ i : Fin 16, t.stu.lanes[i] =
      { mode := .off, polarity := .activeHigh, width := 0, edges := .none, glitches := false, accepted := false
        filter := .steady, glitchCount := 0, lastEdge := none }) ∧
    t.stu.decoder.a = 0 ∧ t.stu.decoder.b = 0 ∧ t.stu.decoder.c = 0 ∧ t.stu.decoder.settle = 0 ∧
    t.stu.decoder.enabled = false ∧ t.stu.decoder.current = none ∧ t.stu.decoder.episode = none ∧
    (∀ i : Fin 8, t.stu.decoder.table[i] = { state := .illegal, allowed := 0 }) ∧
    t.stu.check = { running := none, core := 0, bref := 0, rclk := 0 } ∧
    (∀ c : Fin 8, t.rmu.channels[c] =
      { enabled := false, gain := 1024, low := 0, high := 0, hyst := 0, trip := 0, protect := false, decim := 0
        window := .unknown, samples := 0, tripped := false, blanked := false, blankLatch := .unknown, blankHold := 0
        last := none }) ∧
    (∀ d : Fin 8, t.rmu.lines[d] = { active := false, mask := 0 }) ∧ t.rmu.converting = none ∧ t.rmu.position = 7 ∧
    (∀ g : Fin 2, t.btu.buses[g].enabled = false ∧ t.btu.buses[g].width = 1 ∧ t.btu.buses[g].timeout = 25 ∧
      t.btu.buses[g].clockLine = { accepted := true, filter := .steady } ∧
      t.btu.buses[g].dataLine = { accepted := true, filter := .steady } ∧ t.btu.buses[g].phase = .idle ∧
      t.btu.buses[g].bitCount = 0 ∧ t.btu.buses[g].openRecord = none ∧ t.btu.buses[g].stuckTimer = 0 ∧
      t.btu.buses[g].stuck = false) ∧
    (∀ r : Fin 2, t.btu.consoles[r].enabled = false ∧ t.btu.consoles[r].divisor = 68 ∧
      t.btu.consoles[r].idleClose = 10 ∧ t.btu.consoles[r].rx = .waitHigh ∧ t.btu.consoles[r].openRecord = none ∧
      t.btu.consoles[r].idleTimer = none) ∧
    t.cle.queue = [] ∧ t.cle.position = 32 ∧ t.cle.commit = none ∧ t.cle.active = t.cle.shadow ∧
    (∀ i : Fin 64, t.cle.active.entries[i] =
      { valid := false, sourceLow := 0, sourceHigh := 0, kind := none, keyValue := 0, keyMask := 0
        action := { ring := none, cls := none, alert := none, refuse := false, strip := false } }) ∧
    t.cle.active.dflt = { ring := none, cls := none, alert := none, refuse := false, strip := false } ∧
    (∀ i : Fin 65, t.cle.hits[i] = 0) ∧
    t.tsq.run = .idle ∧ t.tsq.level = 0 ∧ t.tsq.stamp = none ∧ t.tsq.cause = none ∧
    (∀ l : Fin 8, t.tsq.levels[l] =
      { a := { enabled := false, cls := 0, next := .stay, actions := [] }
        b := { enabled := false, cls := 0, next := .stay, actions := [] } }) ∧
    (∀ c : Fin 4, t.tsq.counters[c] =
      { source := .cls 0, runAtArm := false, writeMode := .direct, running := false, count := 0, compare := 4294967295
        staged := none }) ∧
    (∀ i : Fin 4, t.tsq.post[i] = none) ∧ t.cst.ready = false ∧
    (∀ i : Fin 4, t.cst.rings[i] =
      { mode := .off, base := 0, size := 0, post := 0, priority := 0, state := .disabled, entries := []
        reference := none, head := none, markDue := false, sinceMark := 0, truncated := false, stopped := false
        dropped := 0, trig := none, written := 0 }) ∧
    t.sce.rate = 7 ∧ t.sce.timeout = 0 ∧ t.sce.powerLane = none ∧ t.sce.powerLevel = true ∧ t.sce.tracked = .unknown ∧
    t.sce.phase = .free ∧ t.sce.running = none ∧ t.sce.queue = [] ∧ t.sce.tck = false ∧ t.sce.tms = true ∧
    t.sce.tdi = true ∧ (∀ n : Fin 4, t.sce.slots[n] = { state := .empty, scan := none, result := none }) ∧
    t.dcu.mode = .normal ∧ t.dcu.safeGuard = [] ∧ (∀ n : Fin 4, t.dcu.pairs[n] = none) ∧
    (∀ d : Fin 8, t.dcu.lines[d] =
      { state := .released, safeAsserted := false, mask := 0, interval := 0, lastRelease := none, guarded := none }) ∧
    t.slu.fixture = straps ∧ t.slu.station = none ∧ t.slu.ingress = [] ∧ t.slu.owed = [] ∧ t.slu.responses = [] ∧
    (∀ i : Fin 16, t.slu.alerts[i] = { pending := false, level := 0 }) ∧ t.slu.mask = 0 ∧ t.slu.due = false ∧
    t.slu.alertCount = 0 ∧ t.slu.exportCount = 0 ∧ t.slu.formed = none ∧ t.slu.sending = none

/-! ## Requests that only read -/

/-- R18, R27, R37, R57, R68, R76, R91, R99, R123, R128, R146, R147, R169, R170, R186, R200: a reading request changes
nothing but its own answer. Model's choices: IDENTIFY's memory ready reads 0 for yes (log 8), a bank above 1 is answered
RANGE (log 22), and ENTRY READ's index 255 (log 26). -/
def Obligations.ReadingRequestsChangeNothing : Prop :=
  (∀ (s : State) (q : Request) (rest : List Request), headIs s q rest codeTimeRead →
     exec .timeRead s =
       .next (answered q.ticket .done
         (num 6 s.tbu.base.toNat ++ num 4 s.tbu.period ++ numSigned s.tbu.trim ++
           (match s.tbu.armed with
             | none => 0 :: List.replicate 7 0
             | some a => 1 :: (num 1 a.lane.val ++ num 6 a.value.toNat)))
         (taken rest s))) ∧
  (∀ (s : State) (q : Request) (rest : List Request) (u : State), u = taken rest s →
     (headIs s q rest codeIdentify →
       exec .identify s =
         .next (answered q.ticket .done
           (num 2 0x6124 ++ num 1 1 ++ num 1 s.slu.fixture.toNat ++ [if s.cst.ready then 0 else 1] ++
             num 1 s.tsq.run.num ++ num 1 s.dcu.mode.num ++ num 1 s.sce.tracked.num) u)) ∧
     (headIs s q rest codeLaneStatus →
       exec .laneStatus s = .next (answered q.ticket .done ((List.finRange 16).flatMap (laneBytes s)) u)) ∧
     (headIs s q rest codeDecodeRead → exec .decodeRead s = .next (answered q.ticket .done (decodeBytes s) u)) ∧
     (headIs s q rest codeRailRead → exec .railRead s = .next (answered q.ticket .done s.rmu.bytes u)) ∧
     (headIs s q rest codeBusStatus →
       (2 ≤ byteAt q.payload 0 → exec .busStatus s = .next (refusedAs q rest .range s)) ∧
       ∀ g : Fin 2, byteAt q.payload 0 = g.val →
         exec .busStatus s = .next (answered q.ticket .done s.btu.buses[g].bytes u)) ∧
     (headIs s q rest codeConsoleStatus →
       (2 ≤ byteAt q.payload 0 → exec .consoleStatus s = .next (refusedAs q rest .range s)) ∧
       ∀ r : Fin 2, byteAt q.payload 0 = r.val →
         exec .consoleStatus s = .next (answered q.ticket .done s.btu.consoles[r].statusBytes u)) ∧
     (headIs s q rest codeTableStatus → exec .tableStatus s = .next (answered q.ticket .done (tableStatusBytes s) u)) ∧
     (headIs s q rest codeLevelRead →
       (8 ≤ byteAt q.payload 0 → exec .levelRead s = .next (refusedAs q rest .range s)) ∧
       ∀ l : Fin 8, byteAt q.payload 0 = l.val →
         exec .levelRead s =
           .next (answered q.ticket .done (s.tsq.levels[l].a.bytes ++ s.tsq.levels[l].b.bytes) u)) ∧
     (headIs s q rest codeSequencerStatus → exec .sequencerStatus s = .next (answered q.ticket .done s.tsq.bytes u)) ∧
     (headIs s q rest codeRingStatus →
       exec .ringStatus s =
         .next (if s.cst.ready then answered q.ticket .done (s.cst.rings.toList.flatMap Ring.bytes) u
           else refusedAs q rest .notReady s)) ∧
     (headIs s q rest codeSlotRead →
       (4 ≤ byteAt q.payload 0 → exec .slotRead s = .next (refusedAs q rest .range s)) ∧
       ∀ n : Fin 4, byteAt q.payload 0 = n.val →
         exec .slotRead s = .next (answered q.ticket .done (s.sce.slotBytes n) u)) ∧
     (headIs s q rest codeScanStatus → exec .scanStatus s = .next (answered q.ticket .done (scanStatusBytes s) u)) ∧
     (headIs s q rest codeLineStatus → exec .lineStatus s = .next (answered q.ticket .done (lineStatusBytes s) u))) ∧
  (∀ (s : State) (q : Request) (rest : List Request) (u : State), u = taken rest s →
     (headIs s q rest codeEntryRead →
       ((2 ≤ byteAt q.payload 0 ∨ (64 ≤ byteAt q.payload 1 ∧ byteAt q.payload 1 ≠ 255)) →
         exec .entryRead s = .next (refusedAs q rest .range s)) ∧
       (∀ (bank : Bank) (hits : Bool), ((byteAt q.payload 0 = 0 ∧ bank = s.cle.active ∧ hits = true) ∨
           (byteAt q.payload 0 = 1 ∧ bank = s.cle.shadow ∧ hits = false)) →
         (∀ i : Fin 64, byteAt q.payload 1 = i.val →
           exec .entryRead s =
             .next (answered q.ticket .done
               (bank.entries[i].bytes i.val ++ (if hits then num 4 s.cle.hits[i.val] else [])) u)) ∧
         (byteAt q.payload 1 = 255 →
           exec .entryRead s =
             .next (answered q.ticket .done
               (bank.dflt.defaultBytes ++ (if hits then num 4 s.cle.hits[64] else [])) u)))) ∧
     (headIs s q rest codeRingRead →
       (s.cst.ready = false → exec .ringRead s = .next (refusedAs q rest .notReady s)) ∧
       (s.cst.ready = true → (4 ≤ byteAt q.payload 0 ∨ numAt q.payload 5 2 = 0) →
         exec .ringRead s = .next (refusedAs q rest .range s)) ∧
       (∀ (i : Fin 4) (r : Ring) (cursor most : Nat) (l : List Entry), s.cst.ready = true → byteAt q.payload 0 = i.val →
         r = s.cst.rings[i] → cursor = numAt q.payload 1 4 → most = numAt q.payload 5 2 → 1 ≤ most →
         l = takeFit 369 most (r.entries.drop cursor) →
         (r.entries.length < cursor → exec .ringRead s = .next (refusedAs q rest .range s)) ∧
         (cursor ≤ r.entries.length → (r.mode ≠ .window ∨ r.state ≠ .frozen) →
           exec .ringRead s = .next (refusedAs q rest .state s)) ∧
         (cursor ≤ r.entries.length → r.mode = .window → r.state = .frozen →
           exec .ringRead s =
             .next (answered q.ticket .done
               (num 1 i.val ++ num 1 l.length ++ num 6 ((lastMark (r.entries.take (cursor + 1))).getD 0).toNat ++
                 num 4 (cursor + l.length) ++ num 4 r.entries.length ++ entryBytes l) u)))))

/-! ## What every step keeps -/

/-- R7–R9, R22, R39, R62, R78, R84, R142, R156, R184, R188, R190: the stores and saturating counts that
`State.storesWithin` names are within their places after every step. -/
def Obligations.StoresStayWithinTheirPlaces : Prop :=
  ∀ s t : State, s.storesWithin → step s = .next t → t.storesWithin

/-- R175, R177, R182, R183: no step makes both lines of a pair active, and in SAFE every line stays at its safe level.
-/
def Obligations.InterlockAndSafeLevelsHold : Prop :=
  ∀ s t : State, s.dcu.interlocked → s.dcu.safeHeld → step s = .next t → t.dcu.interlocked ∧ t.dcu.safeHeld

/-- R4, R63, R126, R130, R131, R135: every ring stays within its capacity, with deltas of 24 bits and a MARK at a WINDOW
ring's oldest end, no two rings share a block, and no record body on its way is longer than its kind allows. -/
def Obligations.RingsStaySound : Prop :=
  ∀ s t : State, s.cst.sound → s.bodiesWithin → step s = .next t → t.cst.sound ∧ t.bodiesWithin

/-- R191: every accepted request is answered exactly once, and the response list is never longer than the owed list. -/
def Obligations.EveryRequestIsAnsweredOnce : Prop :=
  ∀ s t : State, s.answersOnce → s.holdersSingle → step s = .next t →
    t.answersOnce ∧ t.holdersSingle ∧ t.slu.responses.length ≤ t.slu.owed.length

/-- The state after reset is one that the invariants hold of. -/
def Obligations.InvariantsHoldAtReset : Prop :=
  State.reset.storesWithin ∧ State.reset.dcu.interlocked ∧ State.reset.dcu.safeHeld ∧ State.reset.cst.sound ∧
    State.reset.bodiesWithin ∧ State.reset.answersOnce ∧ State.reset.holdersSingle
end

