-- ==== Sys2Proof/Laws/Keys.lean ====
section
/-! SUPPORT. The fields of a record key, each read back from its place (R3, 11.4). -/

namespace Sys2Proof.Machine

/-! ## Fields -/

theorem field_getLsbD (lo width v i : Nat) :
    (field lo width v).getLsbD i = (decide (i < 32) && decide (lo ≤ i) && decide (i - lo < width) && v.testBit (i - lo)) := by
  have hlo : lo ≤ i → (i < 32 → i - lo < 32) := by omega
  simp only [field, BitVec.getLsbD_shiftLeft, BitVec.getLsbD_ofNat, Nat.testBit_mod_two_pow]
  by_cases h : i < 32 <;> by_cases g : lo ≤ i <;> simp [h, g, Nat.not_lt.mpr, hlo]

/-- A field read back at its own place. -/
theorem field_at (lo width v : Nat) (h : lo + width ≤ 32) : (field lo width v).extractLsb' lo width = BitVec.ofNat width v := by
  apply BitVec.eq_of_getLsbD_eq
  intro i hi
  simp only [BitVec.getLsbD_extractLsb', field_getLsbD, BitVec.getLsbD_ofNat, hi, decide_true, Bool.true_and,
    Nat.le_add_right, Nat.add_sub_cancel_left, Bool.and_true]
  simp [show lo + i < 32 by omega]

/-- A field read at a place it does not reach. -/
theorem field_away (lo width v lo' width' : Nat) (h : lo' + width' ≤ lo ∨ lo + width ≤ lo') :
    (field lo width v).extractLsb' lo' width' = 0 := by
  apply BitVec.eq_of_getLsbD_eq
  intro i hi
  simp only [BitVec.getLsbD_extractLsb', field_getLsbD, hi, decide_true, Bool.true_and]
  rcases h with h | h
  · simp [show ¬lo ≤ lo' + i by omega]
  · simp [show ¬lo' + i - lo < width by omega]

theorem field_bit (lo v : Nat) (h : lo < 32) : (field lo 1 v).getLsbD lo = v.testBit 0 := by
  rw [field_getLsbD]
  simp [h]

theorem field_bit_away (lo width v i : Nat) (h : i < lo ∨ lo + width ≤ i) : (field lo width v).getLsbD i = false := by
  rw [field_getLsbD]
  rcases h with h | h
  · simp [show ¬lo ≤ i by omega]
  · simp [show ¬i - lo < width by omega]

theorem testBit_bit (b : Bool) : (bit b).testBit 0 = b := by cases b <;> rfl

/-! ## Keys -/

theorem edgeKey_fields (i : Fin 16) (level : Bool) :
    (edgeKey i level).extractLsb' 28 4 = BitVec.ofNat 4 i.val ∧ (edgeKey i level).getLsbD 27 = level ∧
      (edgeKey i level).extractLsb' 0 27 = 0 := by
  refine ⟨?_, ?_, ?_⟩
  · simp [edgeKey, BitVec.extractLsb'_or, field_at, field_away]
  · rw [edgeKey, BitVec.getLsbD_or, field_bit_away 28 4 _ 27 (by omega), field_bit 27 _ (by omega), testBit_bit,
      Bool.false_or]
  · simp [edgeKey, BitVec.extractLsb'_or, field_away]

theorem glitchKey_fields (i : Fin 16) (us : Nat) :
    (glitchKey i us).extractLsb' 28 4 = BitVec.ofNat 4 i.val ∧
      ((glitchKey i us).extractLsb' 12 16).toNat = min us 65535 ∧ (glitchKey i us).extractLsb' 0 12 = 0 := by
  refine ⟨?_, ?_, ?_⟩
  · simp [glitchKey, BitVec.extractLsb'_or, field_at, field_away]
  · simp [glitchKey, BitVec.extractLsb'_or, field_at, field_away]
  · simp [glitchKey, BitVec.extractLsb'_or, field_away]

theorem keyState_lt (s : Option PlatformState) : keyState s < 8 := by
  cases s with
  | none => decide
  | some x => cases x <;> decide

theorem stateKey_fields (old new : Option PlatformState) (code : Fin 8) :
    ((stateKey old new code).extractLsb' 29 3).toNat = keyState old ∧
      ((stateKey old new code).extractLsb' 26 3).toNat = keyState new ∧
      ((stateKey old new code).extractLsb' 23 3).toNat = code.val ∧ (stateKey old new code).extractLsb' 0 23 = 0 := by
  have h1 := keyState_lt old
  have h2 := keyState_lt new
  refine ⟨?_, ?_, ?_, ?_⟩
  · simp [stateKey, BitVec.extractLsb'_or, field_at, field_away, Nat.mod_eq_of_lt h1]
  · simp [stateKey, BitVec.extractLsb'_or, field_at, field_away, Nat.mod_eq_of_lt h2]
  · simp [stateKey, BitVec.extractLsb'_or, field_at, field_away]
  · simp [stateKey, BitVec.extractLsb'_or, field_away]

theorem clockKey_fields (core bref rclk : Nat) (h1 : core ≤ 255) (h2 : bref ≤ 255) (h3 : rclk ≤ 255) :
    ((clockKey core bref rclk).extractLsb' 24 8).toNat = core ∧
      ((clockKey core bref rclk).extractLsb' 16 8).toNat = bref ∧
      ((clockKey core bref rclk).extractLsb' 8 8).toNat = rclk ∧ (clockKey core bref rclk).extractLsb' 0 8 = 0 := by
  refine ⟨?_, ?_, ?_, ?_⟩
  · simp [clockKey, BitVec.extractLsb'_or, field_at, field_away]
    omega
  · simp [clockKey, BitVec.extractLsb'_or, field_at, field_away]
    omega
  · simp [clockKey, BitVec.extractLsb'_or, field_at, field_away]
    omega
  · simp [clockKey, BitVec.extractLsb'_or, field_away]

theorem railKey_fields (c : Fin 8) (w : Window) (jump : Bool) (mv : Nat) (hmv : mv ≤ 65535) :
    ((railKey c w jump mv).extractLsb' 29 3).toNat = c.val ∧
      ((railKey c w jump mv).extractLsb' 27 2).toNat = keyWindow w ∧ (railKey c w jump mv).getLsbD 26 = jump ∧
      (railKey c w jump mv).extractLsb' 16 10 = 0 ∧ ((railKey c w jump mv).extractLsb' 0 16).toNat = mv := by
  have hw : keyWindow w < 4 := by cases w <;> decide
  refine ⟨?_, ?_, ?_, ?_, ?_⟩
  · simp [railKey, BitVec.extractLsb'_or, field_at, field_away]
  · simp [railKey, BitVec.extractLsb'_or, field_at, field_away, Nat.mod_eq_of_lt hw]
  · rw [railKey, BitVec.getLsbD_or, BitVec.getLsbD_or, BitVec.getLsbD_or, field_bit_away 29 3 _ 26 (by omega),
      field_bit_away 27 2 _ 26 (by omega), field_bit 26 _ (by omega), field_bit_away 0 16 _ 26 (by omega), testBit_bit,
      Bool.false_or, Bool.false_or, Bool.or_false]
  · simp [railKey, BitVec.extractLsb'_or, field_away]
  · simp [railKey, BitVec.extractLsb'_or, field_at, field_away]
    omega

theorem busKey_fields (a x y : Byte) (n : Nat) (hn : n ≤ 255) :
    (busKey a x y n).extractLsb' 24 8 = a ∧ (busKey a x y n).extractLsb' 16 8 = x ∧
      (busKey a x y n).extractLsb' 8 8 = y ∧ ((busKey a x y n).extractLsb' 0 8).toNat = n := by
  refine ⟨?_, ?_, ?_, ?_⟩
  · simp [busKey, BitVec.extractLsb'_or, field_at, field_away]
  · simp [busKey, BitVec.extractLsb'_or, field_at, field_away]
  · simp [busKey, BitVec.extractLsb'_or, field_at, field_away]
  · simp [busKey, BitVec.extractLsb'_or, field_at, field_away]
    omega

/-- The first four text bytes, absent ones 0. -/
theorem textKey_fields (l : List Byte) :
    (textKey l).extractLsb' 24 8 = l.getD 0 0 ∧ (textKey l).extractLsb' 16 8 = l.getD 1 0 ∧
      (textKey l).extractLsb' 8 8 = l.getD 2 0 ∧ (textKey l).extractLsb' 0 8 = l.getD 3 0 := by
  refine ⟨?_, ?_, ?_, ?_⟩ <;>
    simp [textKey, byteAt, BitVec.extractLsb'_or, field_at, field_away]

theorem scanKey_fields (r : ScanReason) (c : Scan) :
    ((scanKey r c).extractLsb' 24 8).toNat = r.num ∧ ((scanKey r c).extractLsb' 22 2).toNat = c.kind.num ∧
      ((scanKey r c).extractLsb' 0 22).toNat = scanValue c % 2 ^ 22 := by
  have hr : r.num < 256 := by cases r <;> decide
  have hk : c.kind.num < 4 := by cases c.kind <;> decide
  refine ⟨?_, ?_, ?_⟩
  · simp [scanKey, BitVec.extractLsb'_or, field_at, field_away, Nat.mod_eq_of_lt hr]
  · simp [scanKey, BitVec.extractLsb'_or, field_at, field_away, Nat.mod_eq_of_lt hk]
  · simp [scanKey, BitVec.extractLsb'_or, field_at, field_away]

theorem driveKey_fields (d : Fin 8) (a : DriveAction) (r : DriveReason) (w : Nat) (hw : w ≤ 65535) :
    ((driveKey d a r w).extractLsb' 29 3).toNat = d.val ∧ ((driveKey d a r w).extractLsb' 27 2).toNat = a.num ∧
      ((driveKey d a r w).extractLsb' 24 3).toNat = r.num ∧ (driveKey d a r w).extractLsb' 16 8 = 0 ∧
      ((driveKey d a r w).extractLsb' 0 16).toNat = if a = .press then w else 0 := by
  have ha : a.num < 4 := by cases a <;> decide
  have hr : r.num < 8 := by cases r <;> decide
  refine ⟨?_, ?_, ?_, ?_, ?_⟩
  · simp [driveKey, BitVec.extractLsb'_or, field_at, field_away]
  · simp [driveKey, BitVec.extractLsb'_or, field_at, field_away, Nat.mod_eq_of_lt ha]
  · simp [driveKey, BitVec.extractLsb'_or, field_at, field_away, Nat.mod_eq_of_lt hr]
  · simp [driveKey, BitVec.extractLsb'_or, field_away]
  · simp [driveKey, BitVec.extractLsb'_or, field_at, field_away]
    split <;> omega

/-- What the actuator reads back from the key of a DRIVE-START record. -/
theorem keyLine_driveKey (d : Fin 8) (a : DriveAction) (r : DriveReason) (w : Nat) : keyLine (driveKey d a r w) = d := by
  apply Fin.ext
  simp [keyLine, driveKey, BitVec.extractLsb'_or, field_at, field_away]

theorem keyIsSafe_driveKey (d : Fin 8) (a : DriveAction) (r : DriveReason) (w : Nat) :
    keyIsSafe (driveKey d a r w) = true ↔ a = .safe := by
  simp only [keyIsSafe, driveKey, BitVec.extractLsb'_or, beq_iff_eq]
  cases a <;> simp [field_at, field_away, DriveAction.num]

end Sys2Proof.Machine
end

