-- ==== Sys2Proof/Laws/Entries.lean ====
section
/-! SUPPORT. The words of a capture entry: as many as its size, each field in its place (R129, R204, 11.3). -/

namespace Sys2Proof.Machine

theorem bodyWords_length (n : Nat) (l : List Byte) : (bodyWords n l).length = n := by
  induction n generalizing l with
  | zero => rfl
  | succ n ih => simp [bodyWords, ih]

/-- An entry fills as many words as its size says. -/
theorem encode_length (e : Entry) : e.encode.length = e.words := by
  cases e <;> simp [Entry.encode, Entry.words, bodyWords_length]
  omega

theorem kind_num_lt (k : Kind) : k.num < 32 := by cases k <;> decide

theorem flags_num_lt (f : RecFlags) : f.num < 64 := by
  obtain ⟨a, b, c, d, e, g⟩ := f
  revert a b c d e g
  decide

theorem originField_lt (o : Option Origin) : originField o < 4 := by
  cases o with
  | none => decide
  | some x => cases x <;> decide

/-- The descriptor of an ordinary entry. -/
theorem descriptor_fields (src : Fin 33) (k : Kind) (f : RecFlags) (o : Option Origin) (d : Int) (lost : Nat) (key : Word)
    (body : List Byte) (hb : body.length ≤ 16) (w : Word)
    (hw : w = (Entry.ordinary src k f o d lost key body).encode.getD 0 0) :
    w.extractLsb' 30 2 = 0 ∧ (w.extractLsb' 24 6).toNat = src.val ∧ (w.extractLsb' 19 5).toNat = k.num ∧
      (w.extractLsb' 14 5).toNat = body.length ∧ (w.extractLsb' 8 6).toNat = f.num ∧
      (w.extractLsb' 6 2).toNat = originField o := by
  have hs : src.val < 64 := by omega
  simp only [Entry.encode, List.cons_append, List.getD_cons_zero] at hw
  subst hw
  refine ⟨?_, ?_, ?_, ?_, ?_, ?_⟩
  · simp [BitVec.extractLsb'_or, field_away]
  · simp [BitVec.extractLsb'_or, field_at, field_away, Nat.mod_eq_of_lt hs]
  · simp [BitVec.extractLsb'_or, field_at, field_away, Nat.mod_eq_of_lt (kind_num_lt k)]
  · simp [BitVec.extractLsb'_or, field_at, field_away]
    omega
  · simp [BitVec.extractLsb'_or, field_at, field_away, Nat.mod_eq_of_lt (flags_num_lt f)]
  · simp [BitVec.extractLsb'_or, field_at, field_away, Nat.mod_eq_of_lt (originField_lt o)]

/-- A delta that fits stands in bits 31–8, two's complement. -/
theorem deltaField_delta (d : Int) (h : deltaFits d = true) : ((deltaField d).extractLsb' 8 24).toInt = d := by
  simp only [deltaFits, Bool.and_eq_true, decide_eq_true_eq] at h
  have e : (deltaField d).extractLsb' 8 24 = BitVec.ofInt 24 d := by
    have g : (BitVec.ofInt 32 d).setWidth 24 = BitVec.ofInt 24 d := by
      apply BitVec.eq_of_toNat_eq
      simp only [BitVec.toNat_setWidth, BitVec.toNat_ofInt]
      omega
    rw [← g]
    apply BitVec.eq_of_getLsbD_eq
    intro i hi
    simp [deltaField, hi, show 8 + i < 32 by omega]
    exact (BitVec.getLsbD_eq_getElem _).symm
  rw [e, BitVec.toInt_ofInt]
  simp only [Int.bmod]
  omega

theorem deltaField_low (d : Int) : (deltaField d).extractLsb' 0 8 = 0 := by
  apply BitVec.eq_of_getLsbD_eq
  intro i hi
  simp [deltaField, BitVec.getLsbD_shiftLeft, hi]

/-- The delta word of an ordinary entry carries the delta and the record's lost count. -/
theorem deltaWord_fields (d : Int) (lost : Nat) (h : deltaFits d = true) (hl : lost ≤ 255) :
    ((deltaField d ||| field 0 8 lost).extractLsb' 8 24).toInt = d ∧
      ((deltaField d ||| field 0 8 lost).extractLsb' 0 8).toNat = lost := by
  refine ⟨?_, ?_⟩
  · rw [BitVec.extractLsb'_or, field_away 0 8 lost 8 24 (by omega)]
    simpa using deltaField_delta d h
  · rw [BitVec.extractLsb'_or, field_at 0 8 lost (by omega), deltaField_low]
    simp
    omega

end Sys2Proof.Machine
end

