-- ==== Sys2Proof/Laws/State.lean ====
section
/-! SUPPORT. What each update of the state writes, and that it writes nothing else: one lemma per field per update. -/

namespace Sys2Proof.Machine

/-! ## Lanes and the decoder -/

@[simp] theorem setLane_pending (i : Fin 16) (l : Lane) (s : State) : (setLane i l s).pending = s.pending := rfl
@[simp] theorem setLane_clock (i : Fin 16) (l : Lane) (s : State) : (setLane i l s).clock = s.clock := rfl
@[simp] theorem setLane_free (i : Fin 16) (l : Lane) (s : State) : (setLane i l s).free = s.free := rfl
@[simp] theorem setLane_pins (i : Fin 16) (l : Lane) (s : State) : (setLane i l s).pins = s.pins := rfl
@[simp] theorem setLane_tbu (i : Fin 16) (l : Lane) (s : State) : (setLane i l s).tbu = s.tbu := rfl
@[simp] theorem setLane_hold (i : Fin 16) (l : Lane) (s : State) : (setLane i l s).hold = s.hold := rfl
@[simp] theorem setLane_stu (i : Fin 16) (l : Lane) (s : State) :
    (setLane i l s).stu = { s.stu with lanes := put s.stu.lanes i l } := rfl
@[simp] theorem setLane_rmu (i : Fin 16) (l : Lane) (s : State) : (setLane i l s).rmu = s.rmu := rfl
@[simp] theorem setLane_btu (i : Fin 16) (l : Lane) (s : State) : (setLane i l s).btu = s.btu := rfl
@[simp] theorem setLane_cle (i : Fin 16) (l : Lane) (s : State) : (setLane i l s).cle = s.cle := rfl
@[simp] theorem setLane_tsq (i : Fin 16) (l : Lane) (s : State) : (setLane i l s).tsq = s.tsq := rfl
@[simp] theorem setLane_cst (i : Fin 16) (l : Lane) (s : State) : (setLane i l s).cst = s.cst := rfl
@[simp] theorem setLane_sce (i : Fin 16) (l : Lane) (s : State) : (setLane i l s).sce = s.sce := rfl
@[simp] theorem setLane_dcu (i : Fin 16) (l : Lane) (s : State) : (setLane i l s).dcu = s.dcu := rfl
@[simp] theorem setLane_slu (i : Fin 16) (l : Lane) (s : State) : (setLane i l s).slu = s.slu := rfl

@[simp] theorem setDecoder_pending (d : Decoder) (s : State) : (setDecoder d s).pending = s.pending := rfl
@[simp] theorem setDecoder_clock (d : Decoder) (s : State) : (setDecoder d s).clock = s.clock := rfl
@[simp] theorem setDecoder_free (d : Decoder) (s : State) : (setDecoder d s).free = s.free := rfl
@[simp] theorem setDecoder_pins (d : Decoder) (s : State) : (setDecoder d s).pins = s.pins := rfl
@[simp] theorem setDecoder_tbu (d : Decoder) (s : State) : (setDecoder d s).tbu = s.tbu := rfl
@[simp] theorem setDecoder_hold (d : Decoder) (s : State) : (setDecoder d s).hold = s.hold := rfl
@[simp] theorem setDecoder_stu (d : Decoder) (s : State) : (setDecoder d s).stu = { s.stu with decoder := d } := rfl
@[simp] theorem setDecoder_rmu (d : Decoder) (s : State) : (setDecoder d s).rmu = s.rmu := rfl
@[simp] theorem setDecoder_btu (d : Decoder) (s : State) : (setDecoder d s).btu = s.btu := rfl
@[simp] theorem setDecoder_cle (d : Decoder) (s : State) : (setDecoder d s).cle = s.cle := rfl
@[simp] theorem setDecoder_tsq (d : Decoder) (s : State) : (setDecoder d s).tsq = s.tsq := rfl
@[simp] theorem setDecoder_cst (d : Decoder) (s : State) : (setDecoder d s).cst = s.cst := rfl
@[simp] theorem setDecoder_sce (d : Decoder) (s : State) : (setDecoder d s).sce = s.sce := rfl
@[simp] theorem setDecoder_dcu (d : Decoder) (s : State) : (setDecoder d s).dcu = s.dcu := rfl
@[simp] theorem setDecoder_slu (d : Decoder) (s : State) : (setDecoder d s).slu = s.slu := rfl

@[simp] theorem setCheck_pending (c : ClockCheck) (s : State) : (setCheck c s).pending = s.pending := rfl
@[simp] theorem setCheck_clock (c : ClockCheck) (s : State) : (setCheck c s).clock = s.clock := rfl
@[simp] theorem setCheck_free (c : ClockCheck) (s : State) : (setCheck c s).free = s.free := rfl
@[simp] theorem setCheck_pins (c : ClockCheck) (s : State) : (setCheck c s).pins = s.pins := rfl
@[simp] theorem setCheck_tbu (c : ClockCheck) (s : State) : (setCheck c s).tbu = s.tbu := rfl
@[simp] theorem setCheck_hold (c : ClockCheck) (s : State) : (setCheck c s).hold = s.hold := rfl
@[simp] theorem setCheck_stu (c : ClockCheck) (s : State) : (setCheck c s).stu = { s.stu with check := c } := rfl
@[simp] theorem setCheck_rmu (c : ClockCheck) (s : State) : (setCheck c s).rmu = s.rmu := rfl
@[simp] theorem setCheck_btu (c : ClockCheck) (s : State) : (setCheck c s).btu = s.btu := rfl
@[simp] theorem setCheck_cle (c : ClockCheck) (s : State) : (setCheck c s).cle = s.cle := rfl
@[simp] theorem setCheck_tsq (c : ClockCheck) (s : State) : (setCheck c s).tsq = s.tsq := rfl
@[simp] theorem setCheck_cst (c : ClockCheck) (s : State) : (setCheck c s).cst = s.cst := rfl
@[simp] theorem setCheck_sce (c : ClockCheck) (s : State) : (setCheck c s).sce = s.sce := rfl
@[simp] theorem setCheck_dcu (c : ClockCheck) (s : State) : (setCheck c s).dcu = s.dcu := rfl
@[simp] theorem setCheck_slu (c : ClockCheck) (s : State) : (setCheck c s).slu = s.slu := rfl

@[simp] theorem setEdgeRates_pending (a b : BitVec 8) (s : State) : (setEdgeRates a b s).pending = s.pending := rfl
@[simp] theorem setEdgeRates_clock (a b : BitVec 8) (s : State) : (setEdgeRates a b s).clock = s.clock := rfl
@[simp] theorem setEdgeRates_free (a b : BitVec 8) (s : State) : (setEdgeRates a b s).free = s.free := rfl
@[simp] theorem setEdgeRates_pins (a b : BitVec 8) (s : State) :
    (setEdgeRates a b s).pins = { s.pins with brefEdges := a, rclkEdges := b } := rfl
@[simp] theorem setEdgeRates_tbu (a b : BitVec 8) (s : State) : (setEdgeRates a b s).tbu = s.tbu := rfl
@[simp] theorem setEdgeRates_hold (a b : BitVec 8) (s : State) : (setEdgeRates a b s).hold = s.hold := rfl
@[simp] theorem setEdgeRates_stu (a b : BitVec 8) (s : State) : (setEdgeRates a b s).stu = s.stu := rfl
@[simp] theorem setEdgeRates_rmu (a b : BitVec 8) (s : State) : (setEdgeRates a b s).rmu = s.rmu := rfl
@[simp] theorem setEdgeRates_btu (a b : BitVec 8) (s : State) : (setEdgeRates a b s).btu = s.btu := rfl
@[simp] theorem setEdgeRates_cle (a b : BitVec 8) (s : State) : (setEdgeRates a b s).cle = s.cle := rfl
@[simp] theorem setEdgeRates_tsq (a b : BitVec 8) (s : State) : (setEdgeRates a b s).tsq = s.tsq := rfl
@[simp] theorem setEdgeRates_cst (a b : BitVec 8) (s : State) : (setEdgeRates a b s).cst = s.cst := rfl
@[simp] theorem setEdgeRates_sce (a b : BitVec 8) (s : State) : (setEdgeRates a b s).sce = s.sce := rfl
@[simp] theorem setEdgeRates_dcu (a b : BitVec 8) (s : State) : (setEdgeRates a b s).dcu = s.dcu := rfl
@[simp] theorem setEdgeRates_slu (a b : BitVec 8) (s : State) : (setEdgeRates a b s).slu = s.slu := rfl

@[simp] theorem setLanePin_pending (i : Fin 16) (x : Bool) (s : State) : (setLanePin i x s).pending = s.pending := rfl
@[simp] theorem setLanePin_clock (i : Fin 16) (x : Bool) (s : State) : (setLanePin i x s).clock = s.clock := rfl
@[simp] theorem setLanePin_free (i : Fin 16) (x : Bool) (s : State) : (setLanePin i x s).free = s.free := rfl
@[simp] theorem setLanePin_pins (i : Fin 16) (x : Bool) (s : State) :
    (setLanePin i x s).pins = { s.pins with lanes := put s.pins.lanes i x } := rfl
@[simp] theorem setLanePin_tbu (i : Fin 16) (x : Bool) (s : State) : (setLanePin i x s).tbu = s.tbu := rfl
@[simp] theorem setLanePin_hold (i : Fin 16) (x : Bool) (s : State) : (setLanePin i x s).hold = s.hold := rfl
@[simp] theorem setLanePin_stu (i : Fin 16) (x : Bool) (s : State) : (setLanePin i x s).stu = s.stu := rfl
@[simp] theorem setLanePin_rmu (i : Fin 16) (x : Bool) (s : State) : (setLanePin i x s).rmu = s.rmu := rfl
@[simp] theorem setLanePin_btu (i : Fin 16) (x : Bool) (s : State) : (setLanePin i x s).btu = s.btu := rfl
@[simp] theorem setLanePin_cle (i : Fin 16) (x : Bool) (s : State) : (setLanePin i x s).cle = s.cle := rfl
@[simp] theorem setLanePin_tsq (i : Fin 16) (x : Bool) (s : State) : (setLanePin i x s).tsq = s.tsq := rfl
@[simp] theorem setLanePin_cst (i : Fin 16) (x : Bool) (s : State) : (setLanePin i x s).cst = s.cst := rfl
@[simp] theorem setLanePin_sce (i : Fin 16) (x : Bool) (s : State) : (setLanePin i x s).sce = s.sce := rfl
@[simp] theorem setLanePin_dcu (i : Fin 16) (x : Bool) (s : State) : (setLanePin i x s).dcu = s.dcu := rfl
@[simp] theorem setLanePin_slu (i : Fin 16) (x : Bool) (s : State) : (setLanePin i x s).slu = s.slu := rfl

/-! ## Rails -/

@[simp] theorem setChannel_pending (c : Fin 8) (x : Channel) (s : State) :
    (setChannel c x s).pending = s.pending := rfl
@[simp] theorem setChannel_clock (c : Fin 8) (x : Channel) (s : State) : (setChannel c x s).clock = s.clock := rfl
@[simp] theorem setChannel_free (c : Fin 8) (x : Channel) (s : State) : (setChannel c x s).free = s.free := rfl
@[simp] theorem setChannel_pins (c : Fin 8) (x : Channel) (s : State) : (setChannel c x s).pins = s.pins := rfl
@[simp] theorem setChannel_tbu (c : Fin 8) (x : Channel) (s : State) : (setChannel c x s).tbu = s.tbu := rfl
@[simp] theorem setChannel_hold (c : Fin 8) (x : Channel) (s : State) : (setChannel c x s).hold = s.hold := rfl
@[simp] theorem setChannel_stu (c : Fin 8) (x : Channel) (s : State) : (setChannel c x s).stu = s.stu := rfl
@[simp] theorem setChannel_rmu (c : Fin 8) (x : Channel) (s : State) :
    (setChannel c x s).rmu = s.rmu.setChannel c x := rfl
@[simp] theorem setChannel_btu (c : Fin 8) (x : Channel) (s : State) : (setChannel c x s).btu = s.btu := rfl
@[simp] theorem setChannel_cle (c : Fin 8) (x : Channel) (s : State) : (setChannel c x s).cle = s.cle := rfl
@[simp] theorem setChannel_tsq (c : Fin 8) (x : Channel) (s : State) : (setChannel c x s).tsq = s.tsq := rfl
@[simp] theorem setChannel_cst (c : Fin 8) (x : Channel) (s : State) : (setChannel c x s).cst = s.cst := rfl
@[simp] theorem setChannel_sce (c : Fin 8) (x : Channel) (s : State) : (setChannel c x s).sce = s.sce := rfl
@[simp] theorem setChannel_dcu (c : Fin 8) (x : Channel) (s : State) : (setChannel c x s).dcu = s.dcu := rfl
@[simp] theorem setChannel_slu (c : Fin 8) (x : Channel) (s : State) : (setChannel c x s).slu = s.slu := rfl

@[simp] theorem noticeActive_pending (d : Fin 8) (m : BitVec 8) (s : State) :
    (noticeActive d m s).pending = s.pending := rfl
@[simp] theorem noticeActive_clock (d : Fin 8) (m : BitVec 8) (s : State) : (noticeActive d m s).clock = s.clock := rfl
@[simp] theorem noticeActive_free (d : Fin 8) (m : BitVec 8) (s : State) : (noticeActive d m s).free = s.free := rfl
@[simp] theorem noticeActive_pins (d : Fin 8) (m : BitVec 8) (s : State) : (noticeActive d m s).pins = s.pins := rfl
@[simp] theorem noticeActive_tbu (d : Fin 8) (m : BitVec 8) (s : State) : (noticeActive d m s).tbu = s.tbu := rfl
@[simp] theorem noticeActive_hold (d : Fin 8) (m : BitVec 8) (s : State) : (noticeActive d m s).hold = s.hold := rfl
@[simp] theorem noticeActive_stu (d : Fin 8) (m : BitVec 8) (s : State) : (noticeActive d m s).stu = s.stu := rfl
@[simp] theorem noticeActive_rmu (d : Fin 8) (m : BitVec 8) (s : State) :
    (noticeActive d m s).rmu = s.rmu.lineActive d m := rfl
@[simp] theorem noticeActive_btu (d : Fin 8) (m : BitVec 8) (s : State) : (noticeActive d m s).btu = s.btu := rfl
@[simp] theorem noticeActive_cle (d : Fin 8) (m : BitVec 8) (s : State) : (noticeActive d m s).cle = s.cle := rfl
@[simp] theorem noticeActive_tsq (d : Fin 8) (m : BitVec 8) (s : State) : (noticeActive d m s).tsq = s.tsq := rfl
@[simp] theorem noticeActive_cst (d : Fin 8) (m : BitVec 8) (s : State) : (noticeActive d m s).cst = s.cst := rfl
@[simp] theorem noticeActive_sce (d : Fin 8) (m : BitVec 8) (s : State) : (noticeActive d m s).sce = s.sce := rfl
@[simp] theorem noticeActive_dcu (d : Fin 8) (m : BitVec 8) (s : State) : (noticeActive d m s).dcu = s.dcu := rfl
@[simp] theorem noticeActive_slu (d : Fin 8) (m : BitVec 8) (s : State) : (noticeActive d m s).slu = s.slu := rfl

/-! ## Buses and consoles -/

@[simp] theorem setBus_pending (g : Fin 2) (b : Bus) (s : State) : (setBus g b s).pending = s.pending := rfl
@[simp] theorem setBus_clock (g : Fin 2) (b : Bus) (s : State) : (setBus g b s).clock = s.clock := rfl
@[simp] theorem setBus_free (g : Fin 2) (b : Bus) (s : State) : (setBus g b s).free = s.free := rfl
@[simp] theorem setBus_pins (g : Fin 2) (b : Bus) (s : State) : (setBus g b s).pins = s.pins := rfl
@[simp] theorem setBus_tbu (g : Fin 2) (b : Bus) (s : State) : (setBus g b s).tbu = s.tbu := rfl
@[simp] theorem setBus_hold (g : Fin 2) (b : Bus) (s : State) : (setBus g b s).hold = s.hold := rfl
@[simp] theorem setBus_stu (g : Fin 2) (b : Bus) (s : State) : (setBus g b s).stu = s.stu := rfl
@[simp] theorem setBus_rmu (g : Fin 2) (b : Bus) (s : State) : (setBus g b s).rmu = s.rmu := rfl
@[simp] theorem setBus_btu (g : Fin 2) (b : Bus) (s : State) :
    (setBus g b s).btu = { s.btu with buses := put s.btu.buses g b } := rfl
@[simp] theorem setBus_cle (g : Fin 2) (b : Bus) (s : State) : (setBus g b s).cle = s.cle := rfl
@[simp] theorem setBus_tsq (g : Fin 2) (b : Bus) (s : State) : (setBus g b s).tsq = s.tsq := rfl
@[simp] theorem setBus_cst (g : Fin 2) (b : Bus) (s : State) : (setBus g b s).cst = s.cst := rfl
@[simp] theorem setBus_sce (g : Fin 2) (b : Bus) (s : State) : (setBus g b s).sce = s.sce := rfl
@[simp] theorem setBus_dcu (g : Fin 2) (b : Bus) (s : State) : (setBus g b s).dcu = s.dcu := rfl
@[simp] theorem setBus_slu (g : Fin 2) (b : Bus) (s : State) : (setBus g b s).slu = s.slu := rfl

@[simp] theorem setConsole_pending (r : Fin 2) (c : Console) (s : State) :
    (setConsole r c s).pending = s.pending := rfl
@[simp] theorem setConsole_clock (r : Fin 2) (c : Console) (s : State) : (setConsole r c s).clock = s.clock := rfl
@[simp] theorem setConsole_free (r : Fin 2) (c : Console) (s : State) : (setConsole r c s).free = s.free := rfl
@[simp] theorem setConsole_pins (r : Fin 2) (c : Console) (s : State) : (setConsole r c s).pins = s.pins := rfl
@[simp] theorem setConsole_tbu (r : Fin 2) (c : Console) (s : State) : (setConsole r c s).tbu = s.tbu := rfl
@[simp] theorem setConsole_hold (r : Fin 2) (c : Console) (s : State) : (setConsole r c s).hold = s.hold := rfl
@[simp] theorem setConsole_stu (r : Fin 2) (c : Console) (s : State) : (setConsole r c s).stu = s.stu := rfl
@[simp] theorem setConsole_rmu (r : Fin 2) (c : Console) (s : State) : (setConsole r c s).rmu = s.rmu := rfl
@[simp] theorem setConsole_btu (r : Fin 2) (c : Console) (s : State) :
    (setConsole r c s).btu = { s.btu with consoles := put s.btu.consoles r c } := rfl
@[simp] theorem setConsole_cle (r : Fin 2) (c : Console) (s : State) : (setConsole r c s).cle = s.cle := rfl
@[simp] theorem setConsole_tsq (r : Fin 2) (c : Console) (s : State) : (setConsole r c s).tsq = s.tsq := rfl
@[simp] theorem setConsole_cst (r : Fin 2) (c : Console) (s : State) : (setConsole r c s).cst = s.cst := rfl
@[simp] theorem setConsole_sce (r : Fin 2) (c : Console) (s : State) : (setConsole r c s).sce = s.sce := rfl
@[simp] theorem setConsole_dcu (r : Fin 2) (c : Console) (s : State) : (setConsole r c s).dcu = s.dcu := rfl
@[simp] theorem setConsole_slu (r : Fin 2) (c : Console) (s : State) : (setConsole r c s).slu = s.slu := rfl

@[simp] theorem setBusPin_pending (g : Fin 2) (l : BusLine) (x : Bool) (s : State) :
    (setBusPin g l x s).pending = s.pending := by cases l <;> rfl
@[simp] theorem setBusPin_clock (g : Fin 2) (l : BusLine) (x : Bool) (s : State) :
    (setBusPin g l x s).clock = s.clock := by cases l <;> rfl
@[simp] theorem setBusPin_free (g : Fin 2) (l : BusLine) (x : Bool) (s : State) :
    (setBusPin g l x s).free = s.free := by cases l <;> rfl
@[simp] theorem setBusPin_tbu (g : Fin 2) (l : BusLine) (x : Bool) (s : State) :
    (setBusPin g l x s).tbu = s.tbu := by cases l <;> rfl
@[simp] theorem setBusPin_hold (g : Fin 2) (l : BusLine) (x : Bool) (s : State) :
    (setBusPin g l x s).hold = s.hold := by cases l <;> rfl
@[simp] theorem setBusPin_stu (g : Fin 2) (l : BusLine) (x : Bool) (s : State) :
    (setBusPin g l x s).stu = s.stu := by cases l <;> rfl
@[simp] theorem setBusPin_rmu (g : Fin 2) (l : BusLine) (x : Bool) (s : State) :
    (setBusPin g l x s).rmu = s.rmu := by cases l <;> rfl
@[simp] theorem setBusPin_btu (g : Fin 2) (l : BusLine) (x : Bool) (s : State) :
    (setBusPin g l x s).btu = s.btu := by cases l <;> rfl
@[simp] theorem setBusPin_cle (g : Fin 2) (l : BusLine) (x : Bool) (s : State) :
    (setBusPin g l x s).cle = s.cle := by cases l <;> rfl
@[simp] theorem setBusPin_tsq (g : Fin 2) (l : BusLine) (x : Bool) (s : State) :
    (setBusPin g l x s).tsq = s.tsq := by cases l <;> rfl
@[simp] theorem setBusPin_cst (g : Fin 2) (l : BusLine) (x : Bool) (s : State) :
    (setBusPin g l x s).cst = s.cst := by cases l <;> rfl
@[simp] theorem setBusPin_sce (g : Fin 2) (l : BusLine) (x : Bool) (s : State) :
    (setBusPin g l x s).sce = s.sce := by cases l <;> rfl
@[simp] theorem setBusPin_dcu (g : Fin 2) (l : BusLine) (x : Bool) (s : State) :
    (setBusPin g l x s).dcu = s.dcu := by cases l <;> rfl
@[simp] theorem setBusPin_slu (g : Fin 2) (l : BusLine) (x : Bool) (s : State) :
    (setBusPin g l x s).slu = s.slu := by cases l <;> rfl

@[simp] theorem setConPin_pending (r : Fin 2) (x : Bool) (s : State) : (setConPin r x s).pending = s.pending := rfl
@[simp] theorem setConPin_clock (r : Fin 2) (x : Bool) (s : State) : (setConPin r x s).clock = s.clock := rfl
@[simp] theorem setConPin_free (r : Fin 2) (x : Bool) (s : State) : (setConPin r x s).free = s.free := rfl
@[simp] theorem setConPin_pins (r : Fin 2) (x : Bool) (s : State) :
    (setConPin r x s).pins = { s.pins with con := put s.pins.con r x } := rfl
@[simp] theorem setConPin_tbu (r : Fin 2) (x : Bool) (s : State) : (setConPin r x s).tbu = s.tbu := rfl
@[simp] theorem setConPin_hold (r : Fin 2) (x : Bool) (s : State) : (setConPin r x s).hold = s.hold := rfl
@[simp] theorem setConPin_stu (r : Fin 2) (x : Bool) (s : State) : (setConPin r x s).stu = s.stu := rfl
@[simp] theorem setConPin_rmu (r : Fin 2) (x : Bool) (s : State) : (setConPin r x s).rmu = s.rmu := rfl
@[simp] theorem setConPin_btu (r : Fin 2) (x : Bool) (s : State) : (setConPin r x s).btu = s.btu := rfl
@[simp] theorem setConPin_cle (r : Fin 2) (x : Bool) (s : State) : (setConPin r x s).cle = s.cle := rfl
@[simp] theorem setConPin_tsq (r : Fin 2) (x : Bool) (s : State) : (setConPin r x s).tsq = s.tsq := rfl
@[simp] theorem setConPin_cst (r : Fin 2) (x : Bool) (s : State) : (setConPin r x s).cst = s.cst := rfl
@[simp] theorem setConPin_sce (r : Fin 2) (x : Bool) (s : State) : (setConPin r x s).sce = s.sce := rfl
@[simp] theorem setConPin_dcu (r : Fin 2) (x : Bool) (s : State) : (setConPin r x s).dcu = s.dcu := rfl
@[simp] theorem setConPin_slu (r : Fin 2) (x : Bool) (s : State) : (setConPin r x s).slu = s.slu := rfl

/-! ## The scan engine's returns -/

@[simp] theorem sampleReturn_pending (r x : Bool) (s : State) : (sampleReturn r x s).pending = s.pending := rfl
@[simp] theorem sampleReturn_clock (r x : Bool) (s : State) : (sampleReturn r x s).clock = s.clock := rfl
@[simp] theorem sampleReturn_free (r x : Bool) (s : State) : (sampleReturn r x s).free = s.free := rfl
@[simp] theorem sampleReturn_pins (r x : Bool) (s : State) :
    (sampleReturn r x s).pins = { s.pins with rclk := r, tdo := x } := rfl
@[simp] theorem sampleReturn_tbu (r x : Bool) (s : State) : (sampleReturn r x s).tbu = s.tbu := rfl
@[simp] theorem sampleReturn_hold (r x : Bool) (s : State) : (sampleReturn r x s).hold = s.hold := rfl
@[simp] theorem sampleReturn_stu (r x : Bool) (s : State) :
    (sampleReturn r x s).stu =
      { s.stu with check := s.stu.check.count 0 0 (if !s.pins.rclk && r then 1 else 0) } := rfl
@[simp] theorem sampleReturn_rmu (r x : Bool) (s : State) : (sampleReturn r x s).rmu = s.rmu := rfl
@[simp] theorem sampleReturn_btu (r x : Bool) (s : State) : (sampleReturn r x s).btu = s.btu := rfl
@[simp] theorem sampleReturn_cle (r x : Bool) (s : State) : (sampleReturn r x s).cle = s.cle := rfl
@[simp] theorem sampleReturn_tsq (r x : Bool) (s : State) : (sampleReturn r x s).tsq = s.tsq := rfl
@[simp] theorem sampleReturn_cst (r x : Bool) (s : State) : (sampleReturn r x s).cst = s.cst := rfl
@[simp] theorem sampleReturn_sce (r x : Bool) (s : State) :
    (sampleReturn r x s).sce = s.sce.sampled r x := rfl
@[simp] theorem sampleReturn_dcu (r x : Bool) (s : State) : (sampleReturn r x s).dcu = s.dcu := rfl
@[simp] theorem sampleReturn_slu (r x : Bool) (s : State) : (sampleReturn r x s).slu = s.slu := rfl

/-! ## Sequencer and rings -/

@[simp] theorem completeMatch_pending (c : Fin 4) (s : State) : (completeMatch c s).pending = s.pending := rfl
@[simp] theorem completeMatch_clock (c : Fin 4) (s : State) : (completeMatch c s).clock = s.clock := rfl
@[simp] theorem completeMatch_free (c : Fin 4) (s : State) : (completeMatch c s).free = s.free := rfl
@[simp] theorem completeMatch_pins (c : Fin 4) (s : State) : (completeMatch c s).pins = s.pins := rfl
@[simp] theorem completeMatch_tbu (c : Fin 4) (s : State) : (completeMatch c s).tbu = s.tbu := rfl
@[simp] theorem completeMatch_hold (c : Fin 4) (s : State) : (completeMatch c s).hold = s.hold := rfl
@[simp] theorem completeMatch_stu (c : Fin 4) (s : State) : (completeMatch c s).stu = s.stu := rfl
@[simp] theorem completeMatch_rmu (c : Fin 4) (s : State) : (completeMatch c s).rmu = s.rmu := rfl
@[simp] theorem completeMatch_btu (c : Fin 4) (s : State) : (completeMatch c s).btu = s.btu := rfl
@[simp] theorem completeMatch_cle (c : Fin 4) (s : State) : (completeMatch c s).cle = s.cle := rfl
@[simp] theorem completeMatch_tsq (c : Fin 4) (s : State) :
    (completeMatch c s).tsq = s.tsq.setCounter c s.tsq.counters[c].complete := rfl
@[simp] theorem completeMatch_cst (c : Fin 4) (s : State) : (completeMatch c s).cst = s.cst := rfl
@[simp] theorem completeMatch_sce (c : Fin 4) (s : State) : (completeMatch c s).sce = s.sce := rfl
@[simp] theorem completeMatch_dcu (c : Fin 4) (s : State) : (completeMatch c s).dcu = s.dcu := rfl
@[simp] theorem completeMatch_slu (c : Fin 4) (s : State) : (completeMatch c s).slu = s.slu := rfl

@[simp] theorem setRing_pending (i : Fin 4) (r : Ring) (s : State) : (setRing i r s).pending = s.pending := rfl
@[simp] theorem setRing_clock (i : Fin 4) (r : Ring) (s : State) : (setRing i r s).clock = s.clock := rfl
@[simp] theorem setRing_free (i : Fin 4) (r : Ring) (s : State) : (setRing i r s).free = s.free := rfl
@[simp] theorem setRing_pins (i : Fin 4) (r : Ring) (s : State) : (setRing i r s).pins = s.pins := rfl
@[simp] theorem setRing_tbu (i : Fin 4) (r : Ring) (s : State) : (setRing i r s).tbu = s.tbu := rfl
@[simp] theorem setRing_hold (i : Fin 4) (r : Ring) (s : State) : (setRing i r s).hold = s.hold := rfl
@[simp] theorem setRing_stu (i : Fin 4) (r : Ring) (s : State) : (setRing i r s).stu = s.stu := rfl
@[simp] theorem setRing_rmu (i : Fin 4) (r : Ring) (s : State) : (setRing i r s).rmu = s.rmu := rfl
@[simp] theorem setRing_btu (i : Fin 4) (r : Ring) (s : State) : (setRing i r s).btu = s.btu := rfl
@[simp] theorem setRing_cle (i : Fin 4) (r : Ring) (s : State) : (setRing i r s).cle = s.cle := rfl
@[simp] theorem setRing_tsq (i : Fin 4) (r : Ring) (s : State) : (setRing i r s).tsq = s.tsq := rfl
@[simp] theorem setRing_cst (i : Fin 4) (r : Ring) (s : State) :
    (setRing i r s).cst = { s.cst with rings := put s.cst.rings i r } := rfl
@[simp] theorem setRing_sce (i : Fin 4) (r : Ring) (s : State) : (setRing i r s).sce = s.sce := rfl
@[simp] theorem setRing_dcu (i : Fin 4) (r : Ring) (s : State) : (setRing i r s).dcu = s.dcu := rfl
@[simp] theorem setRing_slu (i : Fin 4) (r : Ring) (s : State) : (setRing i r s).slu = s.slu := rfl

/-! ## Control lines -/

@[simp] theorem setLine_pending (d : Fin 8) (l : Line) (s : State) : (setLine d l s).pending = s.pending := rfl
@[simp] theorem setLine_clock (d : Fin 8) (l : Line) (s : State) : (setLine d l s).clock = s.clock := rfl
@[simp] theorem setLine_free (d : Fin 8) (l : Line) (s : State) : (setLine d l s).free = s.free := rfl
@[simp] theorem setLine_pins (d : Fin 8) (l : Line) (s : State) : (setLine d l s).pins = s.pins := rfl
@[simp] theorem setLine_tbu (d : Fin 8) (l : Line) (s : State) : (setLine d l s).tbu = s.tbu := rfl
@[simp] theorem setLine_hold (d : Fin 8) (l : Line) (s : State) : (setLine d l s).hold = s.hold := rfl
@[simp] theorem setLine_stu (d : Fin 8) (l : Line) (s : State) : (setLine d l s).stu = s.stu := rfl
@[simp] theorem setLine_rmu (d : Fin 8) (l : Line) (s : State) : (setLine d l s).rmu = s.rmu := rfl
@[simp] theorem setLine_btu (d : Fin 8) (l : Line) (s : State) : (setLine d l s).btu = s.btu := rfl
@[simp] theorem setLine_cle (d : Fin 8) (l : Line) (s : State) : (setLine d l s).cle = s.cle := rfl
@[simp] theorem setLine_tsq (d : Fin 8) (l : Line) (s : State) : (setLine d l s).tsq = s.tsq := rfl
@[simp] theorem setLine_cst (d : Fin 8) (l : Line) (s : State) : (setLine d l s).cst = s.cst := rfl
@[simp] theorem setLine_sce (d : Fin 8) (l : Line) (s : State) : (setLine d l s).sce = s.sce := rfl
@[simp] theorem setLine_dcu (d : Fin 8) (l : Line) (s : State) : (setLine d l s).dcu = s.dcu.setLine d l := rfl
@[simp] theorem setLine_slu (d : Fin 8) (l : Line) (s : State) : (setLine d l s).slu = s.slu := rfl

@[simp] theorem setPair_pending (n : Fin 4) (p : Option Pair) (s : State) : (setPair n p s).pending = s.pending := rfl
@[simp] theorem setPair_clock (n : Fin 4) (p : Option Pair) (s : State) : (setPair n p s).clock = s.clock := rfl
@[simp] theorem setPair_free (n : Fin 4) (p : Option Pair) (s : State) : (setPair n p s).free = s.free := rfl
@[simp] theorem setPair_pins (n : Fin 4) (p : Option Pair) (s : State) : (setPair n p s).pins = s.pins := rfl
@[simp] theorem setPair_tbu (n : Fin 4) (p : Option Pair) (s : State) : (setPair n p s).tbu = s.tbu := rfl
@[simp] theorem setPair_hold (n : Fin 4) (p : Option Pair) (s : State) : (setPair n p s).hold = s.hold := rfl
@[simp] theorem setPair_stu (n : Fin 4) (p : Option Pair) (s : State) : (setPair n p s).stu = s.stu := rfl
@[simp] theorem setPair_rmu (n : Fin 4) (p : Option Pair) (s : State) : (setPair n p s).rmu = s.rmu := rfl
@[simp] theorem setPair_btu (n : Fin 4) (p : Option Pair) (s : State) : (setPair n p s).btu = s.btu := rfl
@[simp] theorem setPair_cle (n : Fin 4) (p : Option Pair) (s : State) : (setPair n p s).cle = s.cle := rfl
@[simp] theorem setPair_tsq (n : Fin 4) (p : Option Pair) (s : State) : (setPair n p s).tsq = s.tsq := rfl
@[simp] theorem setPair_cst (n : Fin 4) (p : Option Pair) (s : State) : (setPair n p s).cst = s.cst := rfl
@[simp] theorem setPair_sce (n : Fin 4) (p : Option Pair) (s : State) : (setPair n p s).sce = s.sce := rfl
@[simp] theorem setPair_dcu (n : Fin 4) (p : Option Pair) (s : State) :
    (setPair n p s).dcu = { s.dcu with pairs := put s.dcu.pairs n p } := rfl
@[simp] theorem setPair_slu (n : Fin 4) (p : Option Pair) (s : State) : (setPair n p s).slu = s.slu := rfl

/-! ## Alerts, responses, records -/

@[simp] theorem setAlert_pending (a : AlertSource) (s : State) : (setAlert a s).pending = s.pending := rfl
@[simp] theorem setAlert_clock (a : AlertSource) (s : State) : (setAlert a s).clock = s.clock := rfl
@[simp] theorem setAlert_free (a : AlertSource) (s : State) : (setAlert a s).free = s.free := rfl
@[simp] theorem setAlert_pins (a : AlertSource) (s : State) : (setAlert a s).pins = s.pins := rfl
@[simp] theorem setAlert_tbu (a : AlertSource) (s : State) : (setAlert a s).tbu = s.tbu := rfl
@[simp] theorem setAlert_hold (a : AlertSource) (s : State) : (setAlert a s).hold = s.hold := rfl
@[simp] theorem setAlert_stu (a : AlertSource) (s : State) : (setAlert a s).stu = s.stu := rfl
@[simp] theorem setAlert_rmu (a : AlertSource) (s : State) : (setAlert a s).rmu = s.rmu := rfl
@[simp] theorem setAlert_btu (a : AlertSource) (s : State) : (setAlert a s).btu = s.btu := rfl
@[simp] theorem setAlert_cle (a : AlertSource) (s : State) : (setAlert a s).cle = s.cle := rfl
@[simp] theorem setAlert_tsq (a : AlertSource) (s : State) : (setAlert a s).tsq = s.tsq := rfl
@[simp] theorem setAlert_cst (a : AlertSource) (s : State) : (setAlert a s).cst = s.cst := rfl
@[simp] theorem setAlert_sce (a : AlertSource) (s : State) : (setAlert a s).sce = s.sce := rfl
@[simp] theorem setAlert_dcu (a : AlertSource) (s : State) : (setAlert a s).dcu = s.dcu := rfl
@[simp] theorem setAlert_slu (a : AlertSource) (s : State) : (setAlert a s).slu = s.slu.raise a := rfl

@[simp] theorem respond_pending (t : Ticket) (st : Status) (p : List Byte) (s : State) :
    (respond t st p s).pending = s.pending := rfl
@[simp] theorem respond_clock (t : Ticket) (st : Status) (p : List Byte) (s : State) :
    (respond t st p s).clock = s.clock := rfl
@[simp] theorem respond_free (t : Ticket) (st : Status) (p : List Byte) (s : State) :
    (respond t st p s).free = s.free := rfl
@[simp] theorem respond_pins (t : Ticket) (st : Status) (p : List Byte) (s : State) :
    (respond t st p s).pins = s.pins := rfl
@[simp] theorem respond_tbu (t : Ticket) (st : Status) (p : List Byte) (s : State) :
    (respond t st p s).tbu = s.tbu := rfl
@[simp] theorem respond_hold (t : Ticket) (st : Status) (p : List Byte) (s : State) :
    (respond t st p s).hold = s.hold := rfl
@[simp] theorem respond_stu (t : Ticket) (st : Status) (p : List Byte) (s : State) :
    (respond t st p s).stu = s.stu := rfl
@[simp] theorem respond_rmu (t : Ticket) (st : Status) (p : List Byte) (s : State) :
    (respond t st p s).rmu = s.rmu := rfl
@[simp] theorem respond_btu (t : Ticket) (st : Status) (p : List Byte) (s : State) :
    (respond t st p s).btu = s.btu := rfl
@[simp] theorem respond_cle (t : Ticket) (st : Status) (p : List Byte) (s : State) :
    (respond t st p s).cle = s.cle := rfl
@[simp] theorem respond_tsq (t : Ticket) (st : Status) (p : List Byte) (s : State) :
    (respond t st p s).tsq = s.tsq := rfl
@[simp] theorem respond_cst (t : Ticket) (st : Status) (p : List Byte) (s : State) :
    (respond t st p s).cst = s.cst := rfl
@[simp] theorem respond_sce (t : Ticket) (st : Status) (p : List Byte) (s : State) :
    (respond t st p s).sce = s.sce := rfl
@[simp] theorem respond_dcu (t : Ticket) (st : Status) (p : List Byte) (s : State) :
    (respond t st p s).dcu = s.dcu := rfl
@[simp] theorem respond_slu (t : Ticket) (st : Status) (p : List Byte) (s : State) :
    (respond t st p s).slu = s.slu.answer t st p := rfl

@[simp] theorem respondTo_pending (t : Option Ticket) (st : Status) (p : List Byte) (s : State) :
    (respondTo t st p s).pending = s.pending := by cases t <;> rfl
@[simp] theorem respondTo_clock (t : Option Ticket) (st : Status) (p : List Byte) (s : State) :
    (respondTo t st p s).clock = s.clock := by cases t <;> rfl
@[simp] theorem respondTo_free (t : Option Ticket) (st : Status) (p : List Byte) (s : State) :
    (respondTo t st p s).free = s.free := by cases t <;> rfl
@[simp] theorem respondTo_pins (t : Option Ticket) (st : Status) (p : List Byte) (s : State) :
    (respondTo t st p s).pins = s.pins := by cases t <;> rfl
@[simp] theorem respondTo_tbu (t : Option Ticket) (st : Status) (p : List Byte) (s : State) :
    (respondTo t st p s).tbu = s.tbu := by cases t <;> rfl
@[simp] theorem respondTo_hold (t : Option Ticket) (st : Status) (p : List Byte) (s : State) :
    (respondTo t st p s).hold = s.hold := by cases t <;> rfl
@[simp] theorem respondTo_stu (t : Option Ticket) (st : Status) (p : List Byte) (s : State) :
    (respondTo t st p s).stu = s.stu := by cases t <;> rfl
@[simp] theorem respondTo_rmu (t : Option Ticket) (st : Status) (p : List Byte) (s : State) :
    (respondTo t st p s).rmu = s.rmu := by cases t <;> rfl
@[simp] theorem respondTo_btu (t : Option Ticket) (st : Status) (p : List Byte) (s : State) :
    (respondTo t st p s).btu = s.btu := by cases t <;> rfl
@[simp] theorem respondTo_cle (t : Option Ticket) (st : Status) (p : List Byte) (s : State) :
    (respondTo t st p s).cle = s.cle := by cases t <;> rfl
@[simp] theorem respondTo_tsq (t : Option Ticket) (st : Status) (p : List Byte) (s : State) :
    (respondTo t st p s).tsq = s.tsq := by cases t <;> rfl
@[simp] theorem respondTo_cst (t : Option Ticket) (st : Status) (p : List Byte) (s : State) :
    (respondTo t st p s).cst = s.cst := by cases t <;> rfl
@[simp] theorem respondTo_sce (t : Option Ticket) (st : Status) (p : List Byte) (s : State) :
    (respondTo t st p s).sce = s.sce := by cases t <;> rfl
@[simp] theorem respondTo_dcu (t : Option Ticket) (st : Status) (p : List Byte) (s : State) :
    (respondTo t st p s).dcu = s.dcu := by cases t <;> rfl

@[simp] theorem done_pending (q : Request) (p : List Byte) (s : State) : (done q p s).pending = s.pending := rfl
@[simp] theorem done_clock (q : Request) (p : List Byte) (s : State) : (done q p s).clock = s.clock := rfl
@[simp] theorem done_free (q : Request) (p : List Byte) (s : State) : (done q p s).free = s.free := rfl
@[simp] theorem done_pins (q : Request) (p : List Byte) (s : State) : (done q p s).pins = s.pins := rfl
@[simp] theorem done_tbu (q : Request) (p : List Byte) (s : State) : (done q p s).tbu = s.tbu := rfl
@[simp] theorem done_hold (q : Request) (p : List Byte) (s : State) : (done q p s).hold = s.hold := rfl
@[simp] theorem done_stu (q : Request) (p : List Byte) (s : State) : (done q p s).stu = s.stu := rfl
@[simp] theorem done_rmu (q : Request) (p : List Byte) (s : State) : (done q p s).rmu = s.rmu := rfl
@[simp] theorem done_btu (q : Request) (p : List Byte) (s : State) : (done q p s).btu = s.btu := rfl
@[simp] theorem done_cle (q : Request) (p : List Byte) (s : State) : (done q p s).cle = s.cle := rfl
@[simp] theorem done_tsq (q : Request) (p : List Byte) (s : State) : (done q p s).tsq = s.tsq := rfl
@[simp] theorem done_cst (q : Request) (p : List Byte) (s : State) : (done q p s).cst = s.cst := rfl
@[simp] theorem done_sce (q : Request) (p : List Byte) (s : State) : (done q p s).sce = s.sce := rfl
@[simp] theorem done_dcu (q : Request) (p : List Byte) (s : State) : (done q p s).dcu = s.dcu := rfl
@[simp] theorem done_slu (q : Request) (p : List Byte) (s : State) :
    (done q p s).slu = s.slu.answer q.ticket .done p := rfl

@[simp] theorem refuse_pending (q : Request) (st : Status) (s : State) : (refuse q st s).pending = s.pending := rfl
@[simp] theorem refuse_clock (q : Request) (st : Status) (s : State) : (refuse q st s).clock = s.clock := rfl
@[simp] theorem refuse_free (q : Request) (st : Status) (s : State) : (refuse q st s).free = s.free := rfl
@[simp] theorem refuse_pins (q : Request) (st : Status) (s : State) : (refuse q st s).pins = s.pins := rfl
@[simp] theorem refuse_tbu (q : Request) (st : Status) (s : State) : (refuse q st s).tbu = s.tbu := rfl
@[simp] theorem refuse_hold (q : Request) (st : Status) (s : State) : (refuse q st s).hold = s.hold := rfl
@[simp] theorem refuse_stu (q : Request) (st : Status) (s : State) : (refuse q st s).stu = s.stu := rfl
@[simp] theorem refuse_rmu (q : Request) (st : Status) (s : State) : (refuse q st s).rmu = s.rmu := rfl
@[simp] theorem refuse_btu (q : Request) (st : Status) (s : State) : (refuse q st s).btu = s.btu := rfl
@[simp] theorem refuse_cle (q : Request) (st : Status) (s : State) : (refuse q st s).cle = s.cle := rfl
@[simp] theorem refuse_tsq (q : Request) (st : Status) (s : State) : (refuse q st s).tsq = s.tsq := rfl
@[simp] theorem refuse_cst (q : Request) (st : Status) (s : State) : (refuse q st s).cst = s.cst := rfl
@[simp] theorem refuse_sce (q : Request) (st : Status) (s : State) : (refuse q st s).sce = s.sce := rfl
@[simp] theorem refuse_dcu (q : Request) (st : Status) (s : State) : (refuse q st s).dcu = s.dcu := rfl
@[simp] theorem refuse_slu (q : Request) (st : Status) (s : State) :
    (refuse q st s).slu = s.slu.answer q.ticket st [] := rfl

@[simp] theorem produce_pending (r : Record) (s : State) : (produce r s).pending = s.pending := rfl
@[simp] theorem produce_clock (r : Record) (s : State) : (produce r s).clock = s.clock := rfl
@[simp] theorem produce_free (r : Record) (s : State) : (produce r s).free = s.free := rfl
@[simp] theorem produce_pins (r : Record) (s : State) : (produce r s).pins = s.pins := rfl
@[simp] theorem produce_tbu (r : Record) (s : State) : (produce r s).tbu = s.tbu := rfl
@[simp] theorem produce_hold (r : Record) (s : State) :
    (produce r s).hold = put s.hold r.source (s.hold[r.source].accept r) := rfl
@[simp] theorem produce_stu (r : Record) (s : State) : (produce r s).stu = s.stu := rfl
@[simp] theorem produce_rmu (r : Record) (s : State) : (produce r s).rmu = s.rmu := rfl
@[simp] theorem produce_btu (r : Record) (s : State) : (produce r s).btu = s.btu := rfl
@[simp] theorem produce_cle (r : Record) (s : State) : (produce r s).cle = s.cle := rfl
@[simp] theorem produce_tsq (r : Record) (s : State) : (produce r s).tsq = s.tsq := rfl
@[simp] theorem produce_cst (r : Record) (s : State) : (produce r s).cst = s.cst := rfl
@[simp] theorem produce_sce (r : Record) (s : State) : (produce r s).sce = s.sce := rfl
@[simp] theorem produce_dcu (r : Record) (s : State) : (produce r s).dcu = s.dcu := rfl
@[simp] theorem produce_slu (r : Record) (s : State) :
    (produce r s).slu = if s.hold[r.source].beginsLoss r then s.slu.raise .recordLoss else s.slu := rfl

/-! ## One core clock and the resets -/

@[simp] theorem coreClock_pending (s : State) : (coreClock s).pending = s.pending := rfl
@[simp] theorem coreClock_free (s : State) : (coreClock s).free = s.free := rfl
@[simp] theorem coreClock_pins (s : State) : (coreClock s).pins = s.pins := rfl
@[simp] theorem coreClock_hold (s : State) : (coreClock s).hold = s.hold := rfl
@[simp] theorem coreClock_cle (s : State) : (coreClock s).cle = s.cle := rfl
@[simp] theorem coreClock_tsq (s : State) : (coreClock s).tsq = s.tsq := rfl
@[simp] theorem coreClock_dcu (s : State) : (coreClock s).dcu = s.dcu := rfl
@[simp] theorem coreClock_slu (s : State) : (coreClock s).slu = s.slu := rfl

@[simp] theorem resetBlocks_pending (s : State) : (resetBlocks s).pending = s.pending := rfl
@[simp] theorem resetBlocks_clock (s : State) : (resetBlocks s).clock = s.clock := rfl
@[simp] theorem resetBlocks_free (s : State) : (resetBlocks s).free = s.free := rfl
@[simp] theorem resetBlocks_pins (s : State) : (resetBlocks s).pins = s.pins := rfl

@[simp] theorem powerOn_pending (straps : BitVec 4) (s : State) : (powerOn straps s).pending = s.pending := rfl
@[simp] theorem powerOn_free (straps : BitVec 4) (s : State) : (powerOn straps s).free = s.free := rfl

/-! ## Alerts and answers in the Station Link Unit -/

@[simp] theorem Slu.raise_fixture (u : Slu) (a : AlertSource) : (u.raise a).fixture = u.fixture := rfl
@[simp] theorem Slu.raise_station (u : Slu) (a : AlertSource) : (u.raise a).station = u.station := rfl
@[simp] theorem Slu.raise_ingress (u : Slu) (a : AlertSource) : (u.raise a).ingress = u.ingress := rfl
@[simp] theorem Slu.raise_owed (u : Slu) (a : AlertSource) : (u.raise a).owed = u.owed := rfl
@[simp] theorem Slu.raise_responses (u : Slu) (a : AlertSource) : (u.raise a).responses = u.responses := rfl
@[simp] theorem Slu.raise_mask (u : Slu) (a : AlertSource) : (u.raise a).mask = u.mask := rfl
@[simp] theorem Slu.raise_alertCount (u : Slu) (a : AlertSource) : (u.raise a).alertCount = u.alertCount := rfl
@[simp] theorem Slu.raise_exportCount (u : Slu) (a : AlertSource) : (u.raise a).exportCount = u.exportCount := rfl
@[simp] theorem Slu.raise_formed (u : Slu) (a : AlertSource) : (u.raise a).formed = u.formed := rfl
@[simp] theorem Slu.raise_sending (u : Slu) (a : AlertSource) : (u.raise a).sending = u.sending := rfl
@[simp] theorem Slu.raise_accepted (u : Slu) (a : AlertSource) : (u.raise a).accepted = u.accepted := rfl

@[simp] theorem Slu.answer_fixture (u : Slu) (t : Ticket) (st : Status) (p : List Byte) :
    (u.answer t st p).fixture = u.fixture := rfl
@[simp] theorem Slu.answer_station (u : Slu) (t : Ticket) (st : Status) (p : List Byte) :
    (u.answer t st p).station = u.station := rfl
@[simp] theorem Slu.answer_ingress (u : Slu) (t : Ticket) (st : Status) (p : List Byte) :
    (u.answer t st p).ingress = u.ingress := rfl
@[simp] theorem Slu.answer_alerts (u : Slu) (t : Ticket) (st : Status) (p : List Byte) :
    (u.answer t st p).alerts = u.alerts := rfl
@[simp] theorem Slu.answer_mask (u : Slu) (t : Ticket) (st : Status) (p : List Byte) :
    (u.answer t st p).mask = u.mask := rfl
@[simp] theorem Slu.answer_due (u : Slu) (t : Ticket) (st : Status) (p : List Byte) :
    (u.answer t st p).due = u.due := rfl
@[simp] theorem Slu.answer_alertCount (u : Slu) (t : Ticket) (st : Status) (p : List Byte) :
    (u.answer t st p).alertCount = u.alertCount := rfl
@[simp] theorem Slu.answer_exportCount (u : Slu) (t : Ticket) (st : Status) (p : List Byte) :
    (u.answer t st p).exportCount = u.exportCount := rfl
@[simp] theorem Slu.answer_formed (u : Slu) (t : Ticket) (st : Status) (p : List Byte) :
    (u.answer t st p).formed = u.formed := rfl
@[simp] theorem Slu.answer_sending (u : Slu) (t : Ticket) (st : Status) (p : List Byte) :
    (u.answer t st p).sending = u.sending := rfl
@[simp] theorem Slu.answer_accepted (u : Slu) (t : Ticket) (st : Status) (p : List Byte) :
    (u.answer t st p).accepted = u.accepted := rfl
@[simp] theorem Slu.answer_responses (u : Slu) (t : Ticket) (st : Status) (p : List Byte) :
    (u.answer t st p).responses = u.responses ++ [{ ticket := t, status := st, payload := p }] := rfl
@[simp] theorem Slu.answer_owed (u : Slu) (t : Ticket) (st : Status) (p : List Byte) :
    (u.answer t st p).owed = u.owed.map fun o => { o with answered := o.answered || o.ticket.id == t.id } := rfl

/-! ## Members of a block -/

@[simp] theorem Rmu.setChannel_channels (u : Rmu) (c : Fin 8) (x : Channel) :
    (u.setChannel c x).channels = put u.channels c x := rfl
@[simp] theorem Rmu.setChannel_lines (u : Rmu) (c : Fin 8) (x : Channel) : (u.setChannel c x).lines = u.lines := rfl
@[simp] theorem Rmu.setChannel_converting (u : Rmu) (c : Fin 8) (x : Channel) :
    (u.setChannel c x).converting = u.converting := rfl
@[simp] theorem Rmu.setChannel_position (u : Rmu) (c : Fin 8) (x : Channel) :
    (u.setChannel c x).position = u.position := rfl
@[simp] theorem Dcu.setLine_mode (u : Dcu) (d : Fin 8) (l : Line) : (u.setLine d l).mode = u.mode := rfl
@[simp] theorem Dcu.setLine_lines (u : Dcu) (d : Fin 8) (l : Line) : (u.setLine d l).lines = put u.lines d l := rfl
@[simp] theorem Dcu.setLine_safeGuard (u : Dcu) (d : Fin 8) (l : Line) : (u.setLine d l).safeGuard = u.safeGuard := rfl
@[simp] theorem Dcu.setLine_pairs (u : Dcu) (d : Fin 8) (l : Line) : (u.setLine d l).pairs = u.pairs := rfl
@[simp] theorem Sce.freed_slots (u : Sce) : u.freed.slots = u.slots := rfl
@[simp] theorem Sce.freed_queue (u : Sce) : u.freed.queue = u.queue := rfl
@[simp] theorem Sce.freed_phase (u : Sce) : u.freed.phase = .free := rfl
@[simp] theorem Sce.freed_running (u : Sce) : u.freed.running = none := rfl
@[simp] theorem Sce.freed_tracked (u : Sce) : u.freed.tracked = u.tracked := rfl

end Sys2Proof.Machine
end

