-- ==== Sys2Proof/Laws/Events.lean ====
section
/-! SUPPORT. An event command that has not fallen due changes nothing but the level it samples (log 3), and every command
answers a next state. -/

namespace Sys2Proof.Machine

/-- No command faults or refuses (log 30). -/
theorem exec_goesOn (c : Instr) (s : State) : ∃ t, exec c s = .next t := by cases c <;> exact ⟨_, rfl⟩

variable (s : State)

theorem execLaneDeparture_notDue (i : Fin 16) (pin : Bool) (h : (setLanePin i pin s).departureDue i = false) :
    exec (.laneDeparture i pin) s = .next (setLanePin i pin s) := by
  simp [exec, execLaneDeparture, laneDeparture, h]

theorem execLaneAcceptance_notDue (i : Fin 16) (h : s.stu.lanes[i].acceptDue = none) :
    exec (.laneAcceptance i) s = .next s := by
  simp only [exec, execLaneAcceptance, laneAcceptance, h]

theorem execGlitch_notDue (i : Fin 16) (pin : Bool) (h : (setLanePin i pin s).glitchDue i = none) :
    exec (.glitch i pin) s = .next (setLanePin i pin s) := by
  simp [exec, execGlitch, laneGlitch, h]

theorem execBypassAcceptedChange_notDue (i : Fin 16) (pin : Bool) (h : (setLanePin i pin s).bypassDue i = false) :
    exec (.bypassAcceptedChange i pin) s = .next (setLanePin i pin s) := by
  simp [exec, execBypassAcceptedChange, laneBypass, h]

theorem execEpisodeExpiry_notDue (h : s.stu.decoder.expiryDue = false) : exec .episodeExpiry s = .next s := by
  simp [exec, execEpisodeExpiry, h]

theorem execClockCheckEnd_notDue (a b : BitVec 8) (h : s.stu.check.over = false) :
    exec (.clockCheckEnd a b) s = .next (setEdgeRates a b s) := by
  simp only [exec, execClockCheckEnd, clockCheckEnd, setEdgeRates_stu, h]
  split <;> rfl

/-- No edge is counted while no check runs. -/
theorem ClockCheck.count_idle (c : ClockCheck) (k b r : Nat) (h : c.running = none) : c.count k b r = c := by
  simp [ClockCheck.count, h]

/-- No edge is counted once a counter has reached 255 (R39). -/
theorem ClockCheck.count_over (c : ClockCheck) (k b r : Nat) (h : c.over = true) : c.count k b r = c := by
  simp [ClockCheck.count, h]

/-- A running check counts the edges of each of the three clocks, to 255 (R39). -/
theorem ClockCheck.count_running (c : ClockCheck) (k b r : Nat) (h : c.running.isSome = true) (h0 : c.over = false) :
    c.count k b r =
      { c with core := min 255 (c.core + k), bref := min 255 (c.bref + b), rclk := min 255 (c.rclk + r) } := by
  simp [ClockCheck.count, h, h0]

theorem execConversionEnd_notDue (code : BitVec 12) (h : s.rmu.conversionDue = none) :
    exec (.conversionEnd code) s = .next s := by
  simp [exec, execConversionEnd, conversionEnd, h]

theorem execBlankHoldExpiry_notDue (c : Fin 8) (h : s.rmu.blankOver c = false) :
    exec (.blankHoldExpiry c) s = .next s := by
  simp [exec, execBlankHoldExpiry, endBlank, h]

theorem execBusStart_notDue (g : Fin 2) (h : s.busChangeDue g .data = none) : exec (.busStart g) s = .next s := by
  simp [exec, execBusStart, busStart, h]

theorem execBusStop_notDue (g : Fin 2) (h : s.busChangeDue g .data = none) : exec (.busStop g) s = .next s := by
  simp [exec, execBusStop, busStop, h]

theorem execBitTaken_notDue (g : Fin 2) (h : s.busChangeDue g .clock = none) : exec (.bitTaken g) s = .next s := by
  simp [exec, execBitTaken, bitTaken, h]

theorem execBusByteEnd_notDue (g : Fin 2) (h : s.busChangeDue g .clock = none) :
    exec (.busByteEnd g) s = .next s := by
  simp [exec, execBusByteEnd, busByteEnd, h]

theorem execStuckEpisodeEnd_notDue (g : Fin 2) (h : s.busChangeDue g .clock = none) :
    exec (.stuckEpisodeEnd g) s = .next s := by
  simp [exec, execStuckEpisodeEnd, stuckEpisodeEnd, h]

theorem execStuckTimeout_notDue (g : Fin 2) (h : s.btu.buses[g].stuckDue = false) :
    exec (.stuckTimeout g) s = .next s := by
  simp only [exec, execStuckTimeout, stuckTimeout, h]
  rfl

theorem execSampleTick_notDue (r : Fin 2) (pin : Bool) (h : s.btu.consoles[r].tickDue = false) :
    exec (.sampleTick r pin) s = .next (setConPin r pin s) := by
  simp at h
  simp [exec, execSampleTick, sampleTick, h]

theorem execConsoleByte_notDue (r : Fin 2) (pin : Bool) (h : s.btu.consoles[r].tickDue = false) :
    exec (.consoleByte r pin) s = .next (setConPin r pin s) := by
  simp at h
  simp [exec, execConsoleByte, consoleByte, h]

theorem execConsoleBreak_notDue (r : Fin 2) (h : s.btu.consoles[r].tickDue = false) :
    exec (.consoleBreak r) s = .next (setConPin r false s) := by
  simp at h
  simp [exec, execConsoleBreak, consoleBreak, h]

theorem execIdleClose_notDue (r : Fin 2) (h : s.btu.consoles[r].idleDue = false) :
    exec (.idleClose r) s = .next s := by
  simp at h
  simp [exec, execIdleClose, idleClose, h]

theorem execScanComplete_notDue (h : s.sce.completeDue = false) : exec .scanComplete s = .next s := by
  simp [exec, execScanComplete, scanComplete, h]

theorem execReturnClockTimeout_notDue (h : s.sce.timeoutDue = false) : exec .returnClockTimeout s = .next s := by
  simp [exec, execReturnClockTimeout, returnClockTimeout, h]

theorem execAbortPauseReached_notDue (h : s.sce.abortDue = false) : exec .abortPauseReached s = .next s := by
  simp [exec, execAbortPauseReached, abortPauseReached, h]

theorem execTick_notDue (h : s.tbu.tickDue = false) : exec .tick s = .next s := by simp [exec, execTick, tick, h]

theorem execAdmission_notDue (h : s.admits = none) : exec .admission s = .next s := by
  simp [exec, execAdmission, admitNext, h]

theorem execClassifyRecord_empty (h : s.cle.queue = []) : exec .classifyRecord s = .next s := by
  simp [exec, execClassifyRecord, classifyNext, h]

end Sys2Proof.Machine
end

