-- ==== Sys2Proof/Laws/Vectors.lean ====
section
/-! SUPPORT. Reading a vector after put, mapAll and mapEach, and running an operation over a list. -/

namespace Sys2Proof.Machine

variable {α : Type} {n : Nat}

/-! ## Members of a vector -/

/-- Read by a number, the form simp gives a reading by `Fin`. -/
@[simp] theorem put_getElem (v : Vector α n) (i : Fin n) (x : α) (k : Nat) (h : k < n) :
    (put v i x)[k] = if i.val = k then x else v[k] := by simp [put, Vector.getElem_set]

@[simp] theorem mapAll_getElem (f : α → α) (v : Vector α n) (k : Nat) (h : k < n) : (mapAll f v)[k] = f v[k] := by
  simp [mapAll]

@[simp] theorem mapEach_getElem (f : Fin n → α → α) (v : Vector α n) (k : Nat) (h : k < n) :
    (mapEach f v)[k] = f ⟨k, h⟩ v[k] := by simp [mapEach]

theorem put_get (v : Vector α n) (i j : Fin n) (x : α) : (put v i x)[j] = if i = j then x else v[j] := by
  simp [put, Vector.getElem_set, Fin.ext_iff]

@[simp] theorem put_get_self (v : Vector α n) (i : Fin n) (x : α) : (put v i x)[i] = x := by simp [put]

theorem put_get_ne (v : Vector α n) (i j : Fin n) (x : α) (h : i ≠ j) : (put v i x)[j] = v[j] := by
  rw [put_get, if_neg h]

@[simp] theorem put_put (v : Vector α n) (i : Fin n) (x y : α) : put (put v i x) i y = put v i y := by
  simp [put]

@[simp] theorem put_get_eq (v : Vector α n) (i : Fin n) : put v i v[i] = v := by simp [put]

/-- Vectors of equal members are equal. -/
theorem vec_ext {v w : Vector α n} (h : ∀ i : Fin n, v[i] = w[i]) : v = w :=
  Vector.ext fun i hi => h ⟨i, hi⟩

@[simp] theorem mapAll_get (f : α → α) (v : Vector α n) (i : Fin n) : (mapAll f v)[i] = f v[i] := by
  simp [mapAll]

@[simp] theorem mapEach_get (f : Fin n → α → α) (v : Vector α n) (i : Fin n) : (mapEach f v)[i] = f i v[i] := by
  simp [mapEach]

@[simp] theorem replicate_get (x : α) (i : Fin n) : (Vector.replicate n x)[i] = x := by simp

/-! ## Runs over a list -/

/-- What each member's operation keeps, the run keeps. -/
theorem forEach_keeps {β : Type} (P : State → Prop) (f : β → State → State) (l : List β) (s : State)
    (h : ∀ x ∈ l, ∀ t, P t → P (f x t)) (hs : P s) : P (forEach l f s) := by
  induction l generalizing s with
  | nil => exact hs
  | cons x l ih =>
    exact ih (f x s) (fun y hy => h y (List.mem_cons_of_mem _ hy)) (h x List.mem_cons_self s hs)

/-- A part of the state that no member's operation changes, the run does not change. -/
theorem forEach_same {β γ : Type} (φ : State → γ) (f : β → State → State) (l : List β) (s : State)
    (h : ∀ x t, φ (f x t) = φ t) : φ (forEach l f s) = φ s :=
  forEach_keeps (fun t => φ t = φ s) f l s (fun x _ t ht => (h x t).trans ht) rfl

@[simp] theorem forEach_nil {β : Type} (f : β → State → State) (s : State) : forEach [] f s = s := rfl

@[simp] theorem forEach_cons {β : Type} (f : β → State → State) (x : β) (l : List β) (s : State) :
    forEach (x :: l) f s = forEach l f (f x s) := rfl

theorem forEach_append {β : Type} (f : β → State → State) (l m : List β) (s : State) :
    forEach (l ++ m) f s = forEach m f (forEach l f s) := by simp [forEach]

/-! ## Numbers of a range -/

theorem toFin_val {n : Nat} (i : Fin n) : toFin n i.val = some i := by simp [toFin]

theorem toFin_of_eq {n v : Nat} {i : Fin n} (h : v = i.val) : toFin n v = some i := by subst h; exact toFin_val i

theorem toFin_none {n v : Nat} (h : n ≤ v) : toFin n v = none := by simp [toFin, Nat.not_lt.mpr h]

theorem toFin_some {n v : Nat} {i : Fin n} : toFin n v = some i ↔ v = i.val := by
  unfold toFin
  split
  · simp [Fin.ext_iff]
  · rename_i h
    simp
    intro e
    exact h (e ▸ i.isLt)

end Sys2Proof.Machine
end

