-- ==== Sys2Proof/Laws/Frames.lean ====
section
/-! SUPPORT. The frame of each shared operation: the parts of the state it leaves as they are. -/

namespace Sys2Proof.Machine

/-! ## Time base -/

@[simp] theorem applyTimeSet_frame (v : Stamp) (t : Ticket) (s : State) :
    (applyTimeSet v t s).pending = s.pending ∧ (applyTimeSet v t s).clock = s.clock ∧
    (applyTimeSet v t s).free = s.free ∧ (applyTimeSet v t s).pins = s.pins ∧ (applyTimeSet v t s).stu = s.stu ∧
    (applyTimeSet v t s).rmu = s.rmu ∧ (applyTimeSet v t s).btu = s.btu ∧ (applyTimeSet v t s).cle = s.cle ∧
    (applyTimeSet v t s).tsq = s.tsq ∧ (applyTimeSet v t s).sce = s.sce ∧ (applyTimeSet v t s).dcu = s.dcu := by
  simp [applyTimeSet]

@[simp] theorem withdrawArmed_frame (st : Status) (s : State) :
    (withdrawArmed st s).pending = s.pending ∧ (withdrawArmed st s).clock = s.clock ∧
    (withdrawArmed st s).free = s.free ∧ (withdrawArmed st s).pins = s.pins ∧ (withdrawArmed st s).hold = s.hold ∧
    (withdrawArmed st s).stu = s.stu ∧ (withdrawArmed st s).rmu = s.rmu ∧ (withdrawArmed st s).btu = s.btu ∧
    (withdrawArmed st s).cle = s.cle ∧ (withdrawArmed st s).tsq = s.tsq ∧ (withdrawArmed st s).cst = s.cst ∧
    (withdrawArmed st s).sce = s.sce ∧ (withdrawArmed st s).dcu = s.dcu := by
  unfold withdrawArmed
  dsimp only
  (repeat' split) <;> simp

@[simp] theorem timeSetEdge_frame (i : Fin 16) (x : Bool) (t0 : Stamp) (s : State) :
    (timeSetEdge i x t0 s).pending = s.pending ∧ (timeSetEdge i x t0 s).clock = s.clock ∧
    (timeSetEdge i x t0 s).free = s.free ∧ (timeSetEdge i x t0 s).pins = s.pins ∧
    (timeSetEdge i x t0 s).stu = s.stu ∧ (timeSetEdge i x t0 s).rmu = s.rmu ∧ (timeSetEdge i x t0 s).btu = s.btu ∧
    (timeSetEdge i x t0 s).cle = s.cle ∧ (timeSetEdge i x t0 s).tsq = s.tsq ∧ (timeSetEdge i x t0 s).sce = s.sce ∧
    (timeSetEdge i x t0 s).dcu = s.dcu := by
  unfold timeSetEdge
  dsimp only
  (repeat' split) <;> simp

/-! ## Rails and control lines -/

@[simp] theorem endBlank_frame (c : Fin 8) (s : State) :
    (endBlank c s).pending = s.pending ∧ (endBlank c s).clock = s.clock ∧ (endBlank c s).free = s.free ∧
    (endBlank c s).pins = s.pins ∧ (endBlank c s).tbu = s.tbu ∧ (endBlank c s).stu = s.stu ∧
    (endBlank c s).btu = s.btu ∧ (endBlank c s).cle = s.cle ∧ (endBlank c s).tsq = s.tsq ∧
    (endBlank c s).cst = s.cst ∧ (endBlank c s).sce = s.sce ∧ (endBlank c s).dcu = s.dcu := by
  unfold endBlank
  dsimp only
  (repeat' split) <;> simp

@[simp] theorem noticeCeased_frame (d : Fin 8) (n : Nat) (s : State) :
    (noticeCeased d n s).pending = s.pending ∧ (noticeCeased d n s).clock = s.clock ∧
    (noticeCeased d n s).free = s.free ∧ (noticeCeased d n s).pins = s.pins ∧ (noticeCeased d n s).tbu = s.tbu ∧
    (noticeCeased d n s).stu = s.stu ∧ (noticeCeased d n s).btu = s.btu ∧ (noticeCeased d n s).cle = s.cle ∧
    (noticeCeased d n s).tsq = s.tsq ∧ (noticeCeased d n s).cst = s.cst ∧ (noticeCeased d n s).sce = s.sce ∧
    (noticeCeased d n s).dcu = s.dcu := by
  unfold noticeCeased
  refine forEach_keeps (fun t =>
      t.pending = s.pending ∧ t.clock = s.clock ∧ t.free = s.free ∧ t.pins = s.pins ∧ t.tbu = s.tbu ∧
      t.stu = s.stu ∧ t.btu = s.btu ∧ t.cle = s.cle ∧ t.tsq = s.tsq ∧ t.cst = s.cst ∧ t.sce = s.sce ∧
      t.dcu = s.dcu) _ _ _ ?_ (by simp)
  intro c _ t ht
  simpa using ht

@[simp] theorem moveLine_frame (d : Fin 8) (st : LineState) (s : State) :
    (moveLine d st s).pending = s.pending ∧ (moveLine d st s).clock = s.clock ∧ (moveLine d st s).free = s.free ∧
    (moveLine d st s).pins = s.pins ∧ (moveLine d st s).tbu = s.tbu ∧ (moveLine d st s).stu = s.stu ∧
    (moveLine d st s).btu = s.btu ∧ (moveLine d st s).cle = s.cle ∧ (moveLine d st s).tsq = s.tsq ∧
    (moveLine d st s).cst = s.cst ∧ (moveLine d st s).sce = s.sce := by
  unfold moveLine
  dsimp only
  (repeat' split) <;> simp

@[simp] theorem refuseLine_frame (d : Fin 8) (r : LineRequest) (y : DriveReason) (s : State) :
    (refuseLine d r y s).pending = s.pending ∧ (refuseLine d r y s).clock = s.clock ∧
    (refuseLine d r y s).free = s.free ∧ (refuseLine d r y s).pins = s.pins ∧ (refuseLine d r y s).tbu = s.tbu ∧
    (refuseLine d r y s).stu = s.stu ∧ (refuseLine d r y s).rmu = s.rmu ∧ (refuseLine d r y s).btu = s.btu ∧
    (refuseLine d r y s).cle = s.cle ∧ (refuseLine d r y s).tsq = s.tsq ∧ (refuseLine d r y s).cst = s.cst ∧
    (refuseLine d r y s).sce = s.sce ∧ (refuseLine d r y s).dcu = s.dcu := by
  simp [refuseLine]

@[simp] theorem assertLine_frame (d : Fin 8) (r : LineRequest) (s : State) :
    (assertLine d r s).pending = s.pending ∧ (assertLine d r s).clock = s.clock ∧ (assertLine d r s).free = s.free ∧
    (assertLine d r s).pins = s.pins ∧ (assertLine d r s).tbu = s.tbu ∧ (assertLine d r s).stu = s.stu ∧
    (assertLine d r s).btu = s.btu ∧ (assertLine d r s).cle = s.cle ∧ (assertLine d r s).tsq = s.tsq ∧
    (assertLine d r s).cst = s.cst ∧ (assertLine d r s).sce = s.sce := by
  simp [assertLine]

@[simp] theorem deferOrAssert_frame (d : Fin 8) (r : LineRequest) (s : State) :
    (deferOrAssert d r s).pending = s.pending ∧ (deferOrAssert d r s).clock = s.clock ∧
    (deferOrAssert d r s).free = s.free ∧ (deferOrAssert d r s).pins = s.pins ∧ (deferOrAssert d r s).tbu = s.tbu ∧
    (deferOrAssert d r s).stu = s.stu ∧ (deferOrAssert d r s).btu = s.btu ∧ (deferOrAssert d r s).cle = s.cle ∧
    (deferOrAssert d r s).tsq = s.tsq ∧ (deferOrAssert d r s).cst = s.cst ∧ (deferOrAssert d r s).sce = s.sce := by
  unfold deferOrAssert
  (repeat' split) <;> simp

@[simp] theorem lineVerdict_frame (x : Bool) (d : Fin 8) (s : State) :
    (lineVerdict x d s).pending = s.pending ∧ (lineVerdict x d s).clock = s.clock ∧
    (lineVerdict x d s).free = s.free ∧ (lineVerdict x d s).pins = s.pins ∧ (lineVerdict x d s).tbu = s.tbu ∧
    (lineVerdict x d s).stu = s.stu ∧ (lineVerdict x d s).btu = s.btu ∧ (lineVerdict x d s).cle = s.cle ∧
    (lineVerdict x d s).tsq = s.tsq ∧ (lineVerdict x d s).cst = s.cst ∧ (lineVerdict x d s).sce = s.sce := by
  unfold lineVerdict
  dsimp only
  (repeat' split) <;> simp

@[simp] theorem safeChange_frame (d : Fin 8) (st : LineState) (s : State) :
    (safeChange d st s).pending = s.pending ∧ (safeChange d st s).clock = s.clock ∧
    (safeChange d st s).free = s.free ∧ (safeChange d st s).pins = s.pins ∧ (safeChange d st s).tbu = s.tbu ∧
    (safeChange d st s).stu = s.stu ∧ (safeChange d st s).btu = s.btu ∧ (safeChange d st s).cle = s.cle ∧
    (safeChange d st s).tsq = s.tsq ∧ (safeChange d st s).cst = s.cst ∧ (safeChange d st s).sce = s.sce := by
  simp [safeChange]

@[simp] theorem safeLine_frame (d : Fin 8) (s : State) :
    (safeLine d s).pending = s.pending ∧ (safeLine d s).clock = s.clock ∧ (safeLine d s).free = s.free ∧
    (safeLine d s).pins = s.pins ∧ (safeLine d s).tbu = s.tbu ∧ (safeLine d s).stu = s.stu ∧
    (safeLine d s).btu = s.btu ∧ (safeLine d s).cle = s.cle ∧ (safeLine d s).tsq = s.tsq ∧
    (safeLine d s).cst = s.cst ∧ (safeLine d s).sce = s.sce := by
  unfold safeLine
  (repeat' split) <;> simp

@[simp] theorem enterSafe_frame (s : State) :
    (enterSafe s).pending = s.pending ∧ (enterSafe s).clock = s.clock ∧ (enterSafe s).free = s.free ∧
    (enterSafe s).pins = s.pins ∧ (enterSafe s).tbu = s.tbu ∧ (enterSafe s).stu = s.stu ∧ (enterSafe s).btu = s.btu ∧
    (enterSafe s).cle = s.cle ∧ (enterSafe s).tsq = s.tsq ∧ (enterSafe s).cst = s.cst ∧
    (enterSafe s).sce = s.sce := by
  have h := forEach_keeps (fun t =>
      t.pending = s.pending ∧ t.clock = s.clock ∧ t.free = s.free ∧ t.pins = s.pins ∧ t.tbu = s.tbu ∧
      t.stu = s.stu ∧ t.btu = s.btu ∧ t.cle = s.cle ∧ t.tsq = s.tsq ∧ t.cst = s.cst ∧ t.sce = s.sce)
    safeLine (List.finRange 8) s (fun d _ t ht => by simpa using ht) (by simp)
  unfold enterSafe
  dsimp only
  split
  · simp
  · simpa using h

@[simp] theorem takeSafeRequest_frame (t : Option Ticket) (s : State) :
    (takeSafeRequest t s).pending = s.pending ∧ (takeSafeRequest t s).clock = s.clock ∧
    (takeSafeRequest t s).free = s.free ∧ (takeSafeRequest t s).pins = s.pins ∧ (takeSafeRequest t s).tbu = s.tbu ∧
    (takeSafeRequest t s).stu = s.stu ∧ (takeSafeRequest t s).rmu = s.rmu ∧ (takeSafeRequest t s).btu = s.btu ∧
    (takeSafeRequest t s).cle = s.cle ∧ (takeSafeRequest t s).tsq = s.tsq ∧ (takeSafeRequest t s).cst = s.cst ∧
    (takeSafeRequest t s).sce = s.sce := by
  unfold takeSafeRequest
  dsimp only
  (repeat' split) <;> simp

@[simp] theorem safeVerdict_frame (x : Bool) (s : State) :
    (safeVerdict x s).pending = s.pending ∧ (safeVerdict x s).clock = s.clock ∧ (safeVerdict x s).free = s.free ∧
    (safeVerdict x s).pins = s.pins ∧ (safeVerdict x s).tbu = s.tbu ∧ (safeVerdict x s).stu = s.stu ∧
    (safeVerdict x s).btu = s.btu ∧ (safeVerdict x s).cle = s.cle ∧ (safeVerdict x s).tsq = s.tsq ∧
    (safeVerdict x s).cst = s.cst ∧ (safeVerdict x s).sce = s.sce := by
  unfold safeVerdict
  dsimp only
  (repeat' split) <;> simp

@[simp] theorem driveVerdict_frame (x : Bool) (k : Word) (s : State) :
    (driveVerdict x k s).pending = s.pending ∧ (driveVerdict x k s).clock = s.clock ∧
    (driveVerdict x k s).free = s.free ∧ (driveVerdict x k s).pins = s.pins ∧ (driveVerdict x k s).tbu = s.tbu ∧
    (driveVerdict x k s).stu = s.stu ∧ (driveVerdict x k s).btu = s.btu ∧ (driveVerdict x k s).cle = s.cle ∧
    (driveVerdict x k s).tsq = s.tsq ∧ (driveVerdict x k s).cst = s.cst ∧ (driveVerdict x k s).sce = s.sce := by
  unfold driveVerdict
  (repeat' split) <;> simp

@[simp] theorem guardStep_frame (d : Fin 8) (r : LineRequest) (s : State) :
    (guardStep d r s).pending = s.pending ∧ (guardStep d r s).clock = s.clock ∧ (guardStep d r s).free = s.free ∧
    (guardStep d r s).pins = s.pins ∧ (guardStep d r s).tbu = s.tbu ∧ (guardStep d r s).stu = s.stu ∧
    (guardStep d r s).rmu = s.rmu ∧ (guardStep d r s).btu = s.btu ∧ (guardStep d r s).cle = s.cle ∧
    (guardStep d r s).tsq = s.tsq ∧ (guardStep d r s).cst = s.cst ∧ (guardStep d r s).sce = s.sce := by
  simp [guardStep]

@[simp] theorem retrigger_frame (d : Fin 8) (r : LineRequest) (s : State) :
    (retrigger d r s).pending = s.pending ∧ (retrigger d r s).clock = s.clock ∧ (retrigger d r s).free = s.free ∧
    (retrigger d r s).pins = s.pins ∧ (retrigger d r s).tbu = s.tbu ∧ (retrigger d r s).hold = s.hold ∧
    (retrigger d r s).stu = s.stu ∧ (retrigger d r s).rmu = s.rmu ∧ (retrigger d r s).btu = s.btu ∧
    (retrigger d r s).cle = s.cle ∧ (retrigger d r s).tsq = s.tsq ∧ (retrigger d r s).cst = s.cst ∧
    (retrigger d r s).sce = s.sce := by
  simp [retrigger]

@[simp] theorem takeInNormal_frame (d : Fin 8) (r : LineRequest) (s : State) :
    (takeInNormal d r s).pending = s.pending ∧ (takeInNormal d r s).clock = s.clock ∧
    (takeInNormal d r s).free = s.free ∧ (takeInNormal d r s).pins = s.pins ∧ (takeInNormal d r s).tbu = s.tbu ∧
    (takeInNormal d r s).stu = s.stu ∧ (takeInNormal d r s).rmu = s.rmu ∧ (takeInNormal d r s).btu = s.btu ∧
    (takeInNormal d r s).cle = s.cle ∧ (takeInNormal d r s).tsq = s.tsq ∧ (takeInNormal d r s).cst = s.cst ∧
    (takeInNormal d r s).sce = s.sce := by
  unfold takeInNormal
  (repeat' split) <;> simp

@[simp] theorem takeLineRequest_frame (d : Fin 8) (r : LineRequest) (s : State) :
    (takeLineRequest d r s).pending = s.pending ∧ (takeLineRequest d r s).clock = s.clock ∧
    (takeLineRequest d r s).free = s.free ∧ (takeLineRequest d r s).pins = s.pins ∧
    (takeLineRequest d r s).tbu = s.tbu ∧ (takeLineRequest d r s).stu = s.stu ∧ (takeLineRequest d r s).rmu = s.rmu ∧
    (takeLineRequest d r s).btu = s.btu ∧ (takeLineRequest d r s).cle = s.cle ∧ (takeLineRequest d r s).tsq = s.tsq ∧
    (takeLineRequest d r s).cst = s.cst ∧ (takeLineRequest d r s).sce = s.sce := by
  unfold takeLineRequest
  (repeat' split) <;> simp

@[simp] theorem sequencerPress_frame (d : Fin 8) (w : Nat) (s : State) :
    (sequencerPress d w s).pending = s.pending ∧ (sequencerPress d w s).clock = s.clock ∧
    (sequencerPress d w s).free = s.free ∧ (sequencerPress d w s).pins = s.pins ∧
    (sequencerPress d w s).tbu = s.tbu ∧ (sequencerPress d w s).stu = s.stu ∧ (sequencerPress d w s).rmu = s.rmu ∧
    (sequencerPress d w s).btu = s.btu ∧ (sequencerPress d w s).cle = s.cle ∧ (sequencerPress d w s).tsq = s.tsq ∧
    (sequencerPress d w s).cst = s.cst ∧ (sequencerPress d w s).sce = s.sce := by
  simp [sequencerPress]

@[simp] theorem releaseLine_frame (d : Fin 8) (s : State) :
    (releaseLine d s).pending = s.pending ∧ (releaseLine d s).clock = s.clock ∧ (releaseLine d s).free = s.free ∧
    (releaseLine d s).pins = s.pins ∧ (releaseLine d s).tbu = s.tbu ∧ (releaseLine d s).stu = s.stu ∧
    (releaseLine d s).btu = s.btu ∧ (releaseLine d s).cle = s.cle ∧ (releaseLine d s).tsq = s.tsq ∧
    (releaseLine d s).cst = s.cst ∧ (releaseLine d s).sce = s.sce := by
  unfold releaseLine releaseActive
  split <;> simp

/-! ## Rail conversions -/

@[simp] theorem windowStage_frame (c : Fin 8) (k : Conversion) (s : State) :
    (windowStage c k s).pending = s.pending ∧ (windowStage c k s).clock = s.clock ∧
    (windowStage c k s).free = s.free ∧ (windowStage c k s).pins = s.pins ∧ (windowStage c k s).tbu = s.tbu ∧
    (windowStage c k s).stu = s.stu ∧ (windowStage c k s).btu = s.btu ∧ (windowStage c k s).cle = s.cle ∧
    (windowStage c k s).tsq = s.tsq ∧ (windowStage c k s).cst = s.cst ∧ (windowStage c k s).sce = s.sce ∧
    (windowStage c k s).dcu = s.dcu := by
  unfold windowStage
  dsimp only
  (repeat' split) <;> simp

@[simp] theorem tripStage_frame (c : Fin 8) (k : Conversion) (j : Bool) (s : State) :
    (tripStage c k j s).pending = s.pending ∧ (tripStage c k j s).clock = s.clock ∧
    (tripStage c k j s).free = s.free ∧ (tripStage c k j s).pins = s.pins ∧ (tripStage c k j s).tbu = s.tbu ∧
    (tripStage c k j s).stu = s.stu ∧ (tripStage c k j s).btu = s.btu ∧ (tripStage c k j s).cle = s.cle ∧
    (tripStage c k j s).tsq = s.tsq ∧ (tripStage c k j s).cst = s.cst ∧ (tripStage c k j s).sce = s.sce ∧
    (tripStage c k j s).dcu = s.dcu := by
  unfold tripStage
  dsimp only
  (repeat' split) <;> simp

@[simp] theorem sampleStage_frame (c : Fin 8) (k : Conversion) (s : State) :
    (sampleStage c k s).pending = s.pending ∧ (sampleStage c k s).clock = s.clock ∧
    (sampleStage c k s).free = s.free ∧ (sampleStage c k s).pins = s.pins ∧ (sampleStage c k s).tbu = s.tbu ∧
    (sampleStage c k s).stu = s.stu ∧ (sampleStage c k s).btu = s.btu ∧ (sampleStage c k s).cle = s.cle ∧
    (sampleStage c k s).tsq = s.tsq ∧ (sampleStage c k s).cst = s.cst ∧ (sampleStage c k s).sce = s.sce ∧
    (sampleStage c k s).dcu = s.dcu := by
  unfold sampleStage
  dsimp only
  (repeat' split) <;> simp

@[simp] theorem protectStage_frame (x : Bool) (s : State) :
    (protectStage x s).pending = s.pending ∧ (protectStage x s).clock = s.clock ∧ (protectStage x s).free = s.free ∧
    (protectStage x s).pins = s.pins ∧ (protectStage x s).tbu = s.tbu ∧ (protectStage x s).stu = s.stu ∧
    (protectStage x s).btu = s.btu ∧ (protectStage x s).cle = s.cle ∧ (protectStage x s).tsq = s.tsq ∧
    (protectStage x s).cst = s.cst ∧ (protectStage x s).sce = s.sce := by
  unfold protectStage
  (repeat' split) <;> simp

@[simp] theorem conversionResult_frame (c : Fin 8) (x : BitVec 12) (s : State) :
    (conversionResult c x s).pending = s.pending ∧ (conversionResult c x s).clock = s.clock ∧
    (conversionResult c x s).free = s.free ∧ (conversionResult c x s).pins = s.pins ∧
    (conversionResult c x s).tbu = s.tbu ∧ (conversionResult c x s).stu = s.stu ∧
    (conversionResult c x s).btu = s.btu ∧ (conversionResult c x s).cle = s.cle ∧
    (conversionResult c x s).tsq = s.tsq ∧ (conversionResult c x s).cst = s.cst ∧
    (conversionResult c x s).sce = s.sce := by
  simp [conversionResult]

/-! ## Scan engine -/

@[simp] theorem concludeScan_frame (o : ScanOrigin) (st : Status) (l : List Bool) (s : State) :
    (concludeScan o st l s).pending = s.pending ∧ (concludeScan o st l s).clock = s.clock ∧
    (concludeScan o st l s).free = s.free ∧ (concludeScan o st l s).pins = s.pins ∧
    (concludeScan o st l s).tbu = s.tbu ∧ (concludeScan o st l s).hold = s.hold ∧
    (concludeScan o st l s).stu = s.stu ∧ (concludeScan o st l s).rmu = s.rmu ∧ (concludeScan o st l s).btu = s.btu ∧
    (concludeScan o st l s).cle = s.cle ∧ (concludeScan o st l s).tsq = s.tsq ∧ (concludeScan o st l s).cst = s.cst ∧
    (concludeScan o st l s).dcu = s.dcu := by
  unfold concludeScan
  (repeat' split) <;> simp

@[simp] theorem failUndriven_frame (o : ScanOrigin) (c : Scan) (f : Status × ScanReason) (s : State) :
    (failUndriven o c f s).pending = s.pending ∧ (failUndriven o c f s).clock = s.clock ∧
    (failUndriven o c f s).free = s.free ∧ (failUndriven o c f s).pins = s.pins ∧
    (failUndriven o c f s).tbu = s.tbu ∧ (failUndriven o c f s).stu = s.stu ∧ (failUndriven o c f s).rmu = s.rmu ∧
    (failUndriven o c f s).btu = s.btu ∧ (failUndriven o c f s).cle = s.cle ∧ (failUndriven o c f s).tsq = s.tsq ∧
    (failUndriven o c f s).cst = s.cst ∧ (failUndriven o c f s).dcu = s.dcu := by
  simp [failUndriven]

@[simp] theorem enterGuard_frame (o : ScanOrigin) (c : Scan) (s : State) :
    (enterGuard o c s).pending = s.pending ∧ (enterGuard o c s).clock = s.clock ∧ (enterGuard o c s).free = s.free ∧
    (enterGuard o c s).pins = s.pins ∧ (enterGuard o c s).tbu = s.tbu ∧ (enterGuard o c s).stu = s.stu ∧
    (enterGuard o c s).rmu = s.rmu ∧ (enterGuard o c s).btu = s.btu ∧ (enterGuard o c s).cle = s.cle ∧
    (enterGuard o c s).tsq = s.tsq ∧ (enterGuard o c s).cst = s.cst ∧ (enterGuard o c s).dcu = s.dcu := by
  simp [enterGuard]

@[simp] theorem arbitrateFor_frame (n : Nat) (s : State) :
    (arbitrateFor n s).pending = s.pending ∧ (arbitrateFor n s).clock = s.clock ∧ (arbitrateFor n s).free = s.free ∧
    (arbitrateFor n s).pins = s.pins ∧ (arbitrateFor n s).tbu = s.tbu ∧ (arbitrateFor n s).stu = s.stu ∧
    (arbitrateFor n s).rmu = s.rmu ∧ (arbitrateFor n s).btu = s.btu ∧ (arbitrateFor n s).cle = s.cle ∧
    (arbitrateFor n s).tsq = s.tsq ∧ (arbitrateFor n s).cst = s.cst ∧ (arbitrateFor n s).dcu = s.dcu := by
  induction n generalizing s with
  | zero => simp [arbitrateFor]
  | succ n ih =>
    unfold arbitrateFor
    split
    · split
      · simp
      · simp only
        split <;> simp [ih]
    · simp

@[simp] theorem arbitrate_frame (s : State) :
    (arbitrate s).pending = s.pending ∧ (arbitrate s).clock = s.clock ∧ (arbitrate s).free = s.free ∧
    (arbitrate s).pins = s.pins ∧ (arbitrate s).tbu = s.tbu ∧ (arbitrate s).stu = s.stu ∧ (arbitrate s).rmu = s.rmu ∧
    (arbitrate s).btu = s.btu ∧ (arbitrate s).cle = s.cle ∧ (arbitrate s).tsq = s.tsq ∧ (arbitrate s).cst = s.cst ∧
    (arbitrate s).dcu = s.dcu := by
  simp [arbitrate]

@[simp] theorem setUpClock_frame (x : Bool) (s : State) :
    (setUpClock x s).pending = s.pending ∧ (setUpClock x s).clock = s.clock ∧ (setUpClock x s).pins = s.pins ∧
    (setUpClock x s).tbu = s.tbu ∧ (setUpClock x s).hold = s.hold ∧ (setUpClock x s).stu = s.stu ∧
    (setUpClock x s).rmu = s.rmu ∧ (setUpClock x s).btu = s.btu ∧ (setUpClock x s).cle = s.cle ∧
    (setUpClock x s).tsq = s.tsq ∧ (setUpClock x s).cst = s.cst ∧ (setUpClock x s).dcu = s.dcu ∧
    (setUpClock x s).slu = s.slu := by
  unfold setUpClock
  dsimp only
  (repeat' split) <;> simp

@[simp] theorem beginShift_frame (r : Running) (s : State) :
    (beginShift r s).pending = s.pending ∧ (beginShift r s).clock = s.clock ∧ (beginShift r s).pins = s.pins ∧
    (beginShift r s).tbu = s.tbu ∧ (beginShift r s).hold = s.hold ∧ (beginShift r s).stu = s.stu ∧
    (beginShift r s).rmu = s.rmu ∧ (beginShift r s).btu = s.btu ∧ (beginShift r s).cle = s.cle ∧
    (beginShift r s).tsq = s.tsq ∧ (beginShift r s).cst = s.cst ∧ (beginShift r s).dcu = s.dcu ∧
    (beginShift r s).slu = s.slu := by
  simp [beginShift]

@[simp] theorem scanVerdict_frame (x : Bool) (s : State) :
    (scanVerdict x s).pending = s.pending ∧ (scanVerdict x s).clock = s.clock ∧ (scanVerdict x s).pins = s.pins ∧
    (scanVerdict x s).tbu = s.tbu ∧ (scanVerdict x s).stu = s.stu ∧ (scanVerdict x s).rmu = s.rmu ∧
    (scanVerdict x s).btu = s.btu ∧ (scanVerdict x s).cle = s.cle ∧ (scanVerdict x s).tsq = s.tsq ∧
    (scanVerdict x s).cst = s.cst ∧ (scanVerdict x s).dcu = s.dcu := by
  unfold scanVerdict
  (repeat' split) <;> simp

@[simp] theorem completeClock_frame (s : State) :
    (completeClock s).pending = s.pending ∧ (completeClock s).clock = s.clock ∧ (completeClock s).pins = s.pins ∧
    (completeClock s).tbu = s.tbu ∧ (completeClock s).hold = s.hold ∧ (completeClock s).stu = s.stu ∧
    (completeClock s).rmu = s.rmu ∧ (completeClock s).btu = s.btu ∧ (completeClock s).cle = s.cle ∧
    (completeClock s).tsq = s.tsq ∧ (completeClock s).cst = s.cst ∧ (completeClock s).dcu = s.dcu ∧
    (completeClock s).slu = s.slu := by
  unfold completeClock
  dsimp only
  (repeat' split) <;> simp

@[simp] theorem flush_frame (s : State) :
    (flush s).pending = s.pending ∧ (flush s).clock = s.clock ∧ (flush s).free = s.free ∧ (flush s).pins = s.pins ∧
    (flush s).tbu = s.tbu ∧ (flush s).hold = s.hold ∧ (flush s).stu = s.stu ∧ (flush s).rmu = s.rmu ∧
    (flush s).btu = s.btu ∧ (flush s).cle = s.cle ∧ (flush s).tsq = s.tsq ∧ (flush s).cst = s.cst ∧
    (flush s).dcu = s.dcu := by
  have h := forEach_keeps (fun t =>
      t.pending = s.pending ∧ t.clock = s.clock ∧ t.free = s.free ∧ t.pins = s.pins ∧ t.tbu = s.tbu ∧
      t.hold = s.hold ∧ t.stu = s.stu ∧ t.rmu = s.rmu ∧ t.btu = s.btu ∧ t.cle = s.cle ∧ t.tsq = s.tsq ∧
      t.cst = s.cst ∧ t.dcu = s.dcu)
    (fun (q : StationScan) t => respond q.ticket .aborted (resultBytes []) t) s.sce.queue s (fun c _ t ht => by simpa using ht)
    (by simp)
  simpa [flush] using h

@[simp] theorem endDriven_frame (r : Running) (t : TapState) (k : Kind) (y : ScanReason) (st : Status) (s : State) :
    (endDriven r t k y st s).pending = s.pending ∧ (endDriven r t k y st s).clock = s.clock ∧
    (endDriven r t k y st s).free = s.free ∧ (endDriven r t k y st s).pins = s.pins ∧
    (endDriven r t k y st s).tbu = s.tbu ∧ (endDriven r t k y st s).stu = s.stu ∧
    (endDriven r t k y st s).rmu = s.rmu ∧ (endDriven r t k y st s).btu = s.btu ∧
    (endDriven r t k y st s).cle = s.cle ∧ (endDriven r t k y st s).tsq = s.tsq ∧
    (endDriven r t k y st s).cst = s.cst ∧ (endDriven r t k y st s).dcu = s.dcu := by
  simp [endDriven]

@[simp] theorem scanFault_frame (st : Status) (y : ScanReason) (s : State) :
    (scanFault st y s).pending = s.pending ∧ (scanFault st y s).clock = s.clock ∧ (scanFault st y s).free = s.free ∧
    (scanFault st y s).pins = s.pins ∧ (scanFault st y s).tbu = s.tbu ∧ (scanFault st y s).stu = s.stu ∧
    (scanFault st y s).rmu = s.rmu ∧ (scanFault st y s).btu = s.btu ∧ (scanFault st y s).cle = s.cle ∧
    (scanFault st y s).tsq = s.tsq ∧ (scanFault st y s).cst = s.cst ∧ (scanFault st y s).dcu = s.dcu := by
  unfold scanFault
  dsimp only
  (repeat' split) <;> simp

@[simp] theorem scanPowerEdge_frame (i : Fin 16) (x : Bool) (s : State) :
    (scanPowerEdge i x s).pending = s.pending ∧ (scanPowerEdge i x s).clock = s.clock ∧
    (scanPowerEdge i x s).free = s.free ∧ (scanPowerEdge i x s).pins = s.pins ∧ (scanPowerEdge i x s).tbu = s.tbu ∧
    (scanPowerEdge i x s).stu = s.stu ∧ (scanPowerEdge i x s).rmu = s.rmu ∧ (scanPowerEdge i x s).btu = s.btu ∧
    (scanPowerEdge i x s).cle = s.cle ∧ (scanPowerEdge i x s).tsq = s.tsq ∧ (scanPowerEdge i x s).cst = s.cst ∧
    (scanPowerEdge i x s).dcu = s.dcu := by
  unfold scanPowerEdge
  dsimp only
  (repeat' split) <;> simp

@[simp] theorem injectScan_frame (n : Fin 4) (s : State) :
    (injectScan n s).pending = s.pending ∧ (injectScan n s).clock = s.clock ∧ (injectScan n s).free = s.free ∧
    (injectScan n s).pins = s.pins ∧ (injectScan n s).tbu = s.tbu ∧ (injectScan n s).stu = s.stu ∧
    (injectScan n s).rmu = s.rmu ∧ (injectScan n s).btu = s.btu ∧ (injectScan n s).cle = s.cle ∧
    (injectScan n s).tsq = s.tsq ∧ (injectScan n s).cst = s.cst ∧ (injectScan n s).dcu = s.dcu := by
  unfold injectScan
  dsimp only
  (repeat' split) <;> simp

/-! ## Lanes and the decoder -/

@[simp] theorem expireEpisode_frame (s : State) :
    (expireEpisode s).pending = s.pending ∧ (expireEpisode s).clock = s.clock ∧ (expireEpisode s).free = s.free ∧
    (expireEpisode s).pins = s.pins ∧ (expireEpisode s).tbu = s.tbu ∧ (expireEpisode s).rmu = s.rmu ∧
    (expireEpisode s).btu = s.btu ∧ (expireEpisode s).cle = s.cle ∧ (expireEpisode s).tsq = s.tsq ∧
    (expireEpisode s).cst = s.cst ∧ (expireEpisode s).sce = s.sce ∧ (expireEpisode s).dcu = s.dcu := by
  unfold expireEpisode
  dsimp only
  (repeat' split) <;> simp

@[simp] theorem decoderEdge_frame (i : Fin 16) (t0 : Stamp) (s : State) :
    (decoderEdge i t0 s).pending = s.pending ∧ (decoderEdge i t0 s).clock = s.clock ∧
    (decoderEdge i t0 s).free = s.free ∧ (decoderEdge i t0 s).pins = s.pins ∧ (decoderEdge i t0 s).tbu = s.tbu ∧
    (decoderEdge i t0 s).rmu = s.rmu ∧ (decoderEdge i t0 s).btu = s.btu ∧ (decoderEdge i t0 s).cle = s.cle ∧
    (decoderEdge i t0 s).tsq = s.tsq ∧ (decoderEdge i t0 s).cst = s.cst ∧ (decoderEdge i t0 s).sce = s.sce ∧
    (decoderEdge i t0 s).dcu = s.dcu := by
  unfold decoderEdge
  dsimp only
  (repeat' split) <;> simp

@[simp] theorem acceptedChange_frame (i : Fin 16) (x : Bool) (t0 : Stamp) (e : Bool) (s : State) :
    (acceptedChange i x t0 e s).pending = s.pending ∧ (acceptedChange i x t0 e s).clock = s.clock ∧
    (acceptedChange i x t0 e s).free = s.free ∧ (acceptedChange i x t0 e s).pins = s.pins ∧
    (acceptedChange i x t0 e s).rmu = s.rmu ∧ (acceptedChange i x t0 e s).btu = s.btu ∧
    (acceptedChange i x t0 e s).cle = s.cle ∧ (acceptedChange i x t0 e s).tsq = s.tsq ∧
    (acceptedChange i x t0 e s).dcu = s.dcu := by
  unfold acceptedChange
  (repeat' split) <;> simp

@[simp] theorem acceptEdge_frame (i : Fin 16) (t0 : Stamp) (s : State) :
    (acceptEdge i t0 s).pending = s.pending ∧ (acceptEdge i t0 s).clock = s.clock ∧
    (acceptEdge i t0 s).free = s.free ∧ (acceptEdge i t0 s).pins = s.pins ∧ (acceptEdge i t0 s).rmu = s.rmu ∧
    (acceptEdge i t0 s).btu = s.btu ∧ (acceptEdge i t0 s).cle = s.cle ∧ (acceptEdge i t0 s).tsq = s.tsq ∧
    (acceptEdge i t0 s).dcu = s.dcu := by
  unfold acceptEdge
  dsimp only
  (repeat' split) <;> simp

/-! ## Buses and consoles -/

@[simp] theorem closeBus_frame (g : Fin 2) (x : Bool) (s : State) :
    (closeBus g x s).pending = s.pending ∧ (closeBus g x s).clock = s.clock ∧ (closeBus g x s).free = s.free ∧
    (closeBus g x s).pins = s.pins ∧ (closeBus g x s).tbu = s.tbu ∧ (closeBus g x s).stu = s.stu ∧
    (closeBus g x s).rmu = s.rmu ∧ (closeBus g x s).cle = s.cle ∧ (closeBus g x s).tsq = s.tsq ∧
    (closeBus g x s).cst = s.cst ∧ (closeBus g x s).sce = s.sce ∧ (closeBus g x s).dcu = s.dcu := by
  unfold closeBus
  dsimp only
  (repeat' split) <;> simp

@[simp] theorem closeText_frame (r : Fin 2) (s : State) :
    (closeText r s).pending = s.pending ∧ (closeText r s).clock = s.clock ∧ (closeText r s).free = s.free ∧
    (closeText r s).pins = s.pins ∧ (closeText r s).tbu = s.tbu ∧ (closeText r s).stu = s.stu ∧
    (closeText r s).rmu = s.rmu ∧ (closeText r s).cle = s.cle ∧ (closeText r s).tsq = s.tsq ∧
    (closeText r s).cst = s.cst ∧ (closeText r s).sce = s.sce ∧ (closeText r s).dcu = s.dcu := by
  unfold closeText
  dsimp only
  (repeat' split) <;> simp

@[simp] theorem addText_frame (r : Fin 2) (x : Byte) (f : Bool) (s : State) :
    (addText r x f s).pending = s.pending ∧ (addText r x f s).clock = s.clock ∧ (addText r x f s).free = s.free ∧
    (addText r x f s).pins = s.pins ∧ (addText r x f s).tbu = s.tbu ∧ (addText r x f s).stu = s.stu ∧
    (addText r x f s).rmu = s.rmu ∧ (addText r x f s).cle = s.cle ∧ (addText r x f s).tsq = s.tsq ∧
    (addText r x f s).cst = s.cst ∧ (addText r x f s).sce = s.sce ∧ (addText r x f s).dcu = s.dcu := by
  unfold addText
  dsimp only
  (repeat' split) <;> simp

/-! ## Sequencer, rings and the Match Table -/

@[simp] theorem swapBanks_frame (s : State) :
    (swapBanks s).pending = s.pending ∧ (swapBanks s).clock = s.clock ∧ (swapBanks s).free = s.free ∧
    (swapBanks s).pins = s.pins ∧ (swapBanks s).tbu = s.tbu ∧ (swapBanks s).hold = s.hold ∧
    (swapBanks s).stu = s.stu ∧ (swapBanks s).rmu = s.rmu ∧ (swapBanks s).btu = s.btu ∧ (swapBanks s).tsq = s.tsq ∧
    (swapBanks s).cst = s.cst ∧ (swapBanks s).sce = s.sce ∧ (swapBanks s).dcu = s.dcu := by
  simp [swapBanks]

@[simp] theorem finishRun_frame (s : State) :
    (finishRun s).pending = s.pending ∧ (finishRun s).clock = s.clock ∧ (finishRun s).free = s.free ∧
    (finishRun s).pins = s.pins ∧ (finishRun s).tbu = s.tbu ∧ (finishRun s).hold = s.hold ∧
    (finishRun s).stu = s.stu ∧ (finishRun s).rmu = s.rmu ∧ (finishRun s).btu = s.btu ∧ (finishRun s).cle = s.cle ∧
    (finishRun s).cst = s.cst ∧ (finishRun s).sce = s.sce ∧ (finishRun s).dcu = s.dcu := by
  unfold finishRun
  dsimp only
  (repeat' split) <;> simp

@[simp] theorem triggerRun_frame (v : Stamp) (c : Cause) (s : State) :
    (triggerRun v c s).pending = s.pending ∧ (triggerRun v c s).clock = s.clock ∧ (triggerRun v c s).free = s.free ∧
    (triggerRun v c s).pins = s.pins ∧ (triggerRun v c s).tbu = s.tbu ∧ (triggerRun v c s).hold = s.hold ∧
    (triggerRun v c s).stu = s.stu ∧ (triggerRun v c s).rmu = s.rmu ∧ (triggerRun v c s).btu = s.btu ∧
    (triggerRun v c s).cle = s.cle ∧ (triggerRun v c s).sce = s.sce ∧ (triggerRun v c s).dcu = s.dcu := by
  simp [triggerRun]

@[simp] theorem frozenNotice_frame (i : Fin 4) (s : State) :
    (frozenNotice i s).pending = s.pending ∧ (frozenNotice i s).clock = s.clock ∧ (frozenNotice i s).free = s.free ∧
    (frozenNotice i s).pins = s.pins ∧ (frozenNotice i s).tbu = s.tbu ∧ (frozenNotice i s).hold = s.hold ∧
    (frozenNotice i s).stu = s.stu ∧ (frozenNotice i s).rmu = s.rmu ∧ (frozenNotice i s).btu = s.btu ∧
    (frozenNotice i s).cle = s.cle ∧ (frozenNotice i s).cst = s.cst ∧ (frozenNotice i s).sce = s.sce ∧
    (frozenNotice i s).dcu = s.dcu := by
  unfold frozenNotice
  dsimp only
  (repeat' split) <;> simp

@[simp] theorem branchAction_frame (a : SeqAction) (s : State) :
    (branchAction a s).pending = s.pending ∧ (branchAction a s).clock = s.clock ∧ (branchAction a s).free = s.free ∧
    (branchAction a s).pins = s.pins ∧ (branchAction a s).tbu = s.tbu ∧ (branchAction a s).stu = s.stu ∧
    (branchAction a s).rmu = s.rmu ∧ (branchAction a s).btu = s.btu ∧ (branchAction a s).cle = s.cle ∧
    (branchAction a s).cst = s.cst := by
  unfold branchAction
  dsimp only
  (repeat' split) <;> simp

@[simp] theorem takeBranch_frame (b : Branch) (c : Cause) (v : Stamp) (s : State) :
    (takeBranch b c v s).pending = s.pending ∧ (takeBranch b c v s).clock = s.clock ∧
    (takeBranch b c v s).free = s.free ∧ (takeBranch b c v s).pins = s.pins ∧ (takeBranch b c v s).tbu = s.tbu ∧
    (takeBranch b c v s).stu = s.stu ∧ (takeBranch b c v s).rmu = s.rmu ∧ (takeBranch b c v s).btu = s.btu ∧
    (takeBranch b c v s).cle = s.cle := by
  have h := forEach_keeps (fun t =>
      t.pending = s.pending ∧ t.clock = s.clock ∧ t.free = s.free ∧ t.pins = s.pins ∧ t.tbu = s.tbu ∧
      t.stu = s.stu ∧ t.rmu = s.rmu ∧ t.btu = s.btu ∧ t.cle = s.cle)
    branchAction b.actions s (fun c _ t ht => by simpa using ht) (by simp)
  unfold takeBranch
  simp only
  split <;> simpa using h

@[simp] theorem compareClass_frame (k : Fin 20) (v : Stamp) (s : State) :
    (compareClass k v s).pending = s.pending ∧ (compareClass k v s).clock = s.clock ∧
    (compareClass k v s).free = s.free ∧ (compareClass k v s).pins = s.pins ∧ (compareClass k v s).tbu = s.tbu ∧
    (compareClass k v s).stu = s.stu ∧ (compareClass k v s).rmu = s.rmu ∧ (compareClass k v s).btu = s.btu ∧
    (compareClass k v s).cle = s.cle := by
  unfold compareClass
  dsimp only
  (repeat' split) <;> simp

@[simp] theorem handleMatch_frame (v : Stamp) (c : Fin 4) (s : State) :
    (handleMatch v c s).pending = s.pending ∧ (handleMatch v c s).clock = s.clock ∧
    (handleMatch v c s).free = s.free ∧ (handleMatch v c s).pins = s.pins ∧ (handleMatch v c s).tbu = s.tbu ∧
    (handleMatch v c s).stu = s.stu ∧ (handleMatch v c s).rmu = s.rmu ∧ (handleMatch v c s).btu = s.btu ∧
    (handleMatch v c s).cle = s.cle := by
  unfold handleMatch
  dsimp only
  (repeat' split) <;> simp

@[simp] theorem deliverClass_frame (e : Fin 16) (v : Stamp) (s : State) :
    (deliverClass e v s).pending = s.pending ∧ (deliverClass e v s).clock = s.clock ∧
    (deliverClass e v s).free = s.free ∧ (deliverClass e v s).pins = s.pins ∧ (deliverClass e v s).tbu = s.tbu ∧
    (deliverClass e v s).stu = s.stu ∧ (deliverClass e v s).rmu = s.rmu ∧ (deliverClass e v s).btu = s.btu ∧
    (deliverClass e v s).cle = s.cle := by
  unfold deliverClass
  split
  · exact forEach_keeps (fun t =>
      t.pending = s.pending ∧ t.clock = s.clock ∧ t.free = s.free ∧ t.pins = s.pins ∧ t.tbu = s.tbu ∧
      t.stu = s.stu ∧ t.rmu = s.rmu ∧ t.btu = s.btu ∧ t.cle = s.cle)
      _ _ _ (fun c _ t ht => by simpa using ht) (by simp)
  · simp

@[simp] theorem sequencerTick_frame (s : State) :
    (sequencerTick s).pending = s.pending ∧ (sequencerTick s).clock = s.clock ∧ (sequencerTick s).free = s.free ∧
    (sequencerTick s).pins = s.pins ∧ (sequencerTick s).tbu = s.tbu ∧ (sequencerTick s).stu = s.stu ∧
    (sequencerTick s).rmu = s.rmu ∧ (sequencerTick s).btu = s.btu ∧ (sequencerTick s).cle = s.cle := by
  unfold sequencerTick
  split
  · exact forEach_keeps (fun t =>
      t.pending = s.pending ∧ t.clock = s.clock ∧ t.free = s.free ∧ t.pins = s.pins ∧ t.tbu = s.tbu ∧
      t.stu = s.stu ∧ t.rmu = s.rmu ∧ t.btu = s.btu ∧ t.cle = s.cle)
      _ _ _ (fun c _ t ht => by simpa using ht) (by simp)
  · simp

@[simp] theorem offer_frame (i : Fin 4) (r : Record) (x : Bool) (s : State) :
    (offer i r x s).pending = s.pending ∧ (offer i r x s).clock = s.clock ∧ (offer i r x s).free = s.free ∧
    (offer i r x s).pins = s.pins ∧ (offer i r x s).tbu = s.tbu ∧ (offer i r x s).hold = s.hold ∧
    (offer i r x s).stu = s.stu ∧ (offer i r x s).rmu = s.rmu ∧ (offer i r x s).btu = s.btu ∧
    (offer i r x s).cle = s.cle ∧ (offer i r x s).sce = s.sce ∧ (offer i r x s).dcu = s.dcu := by
  unfold offer
  dsimp only
  (repeat' split) <;> simp

@[simp] theorem admitNext_frame (s : State) :
    (admitNext s).pending = s.pending ∧ (admitNext s).clock = s.clock ∧ (admitNext s).free = s.free ∧
    (admitNext s).pins = s.pins ∧ (admitNext s).tbu = s.tbu ∧ (admitNext s).stu = s.stu ∧ (admitNext s).rmu = s.rmu ∧
    (admitNext s).btu = s.btu ∧ (admitNext s).tsq = s.tsq ∧ (admitNext s).cst = s.cst ∧ (admitNext s).sce = s.sce ∧
    (admitNext s).dcu = s.dcu ∧ (admitNext s).slu = s.slu := by
  unfold admitNext
  dsimp only
  (repeat' split) <;> simp

end Sys2Proof.Machine
end

