-- ==== Sys2Proof/Laws/Lines.lean ====
section
/-! SUPPORT. What a line's move, SAFE entry and the safe change of a line do to the Drive Control Unit. -/

namespace Sys2Proof.Machine

@[simp] theorem endBlank_dcu (c : Fin 8) (s : State) : (endBlank c s).dcu = s.dcu := by simp

/-- A move changes the line's state and last release; no other line, and nothing else of the unit. -/
theorem moveLine_dcu (d : Fin 8) (st : LineState) (s : State) :
    (moveLine d st s).dcu = s.dcu.setLine d (s.dcu.lines[d].moved st { clock := s.clock, stamp := s.now }) := by
  unfold moveLine
  dsimp only
  split
  · rfl
  · split <;> simp

/-- A line that becomes active sends the active notice (R172). -/
theorem moveLine_active (d : Fin 8) (st : LineState) (s : State) (h0 : s.dcu.lines[d].state.active = false)
    (h1 : st.active = true) :
    moveLine d st s =
      noticeActive d s.dcu.lines[d].mask
        (setLine d (s.dcu.lines[d].moved st { clock := s.clock, stamp := s.now }) s) := by
  simp only [moveLine, h0, h1, Bool.not_false, Bool.and_self, if_true]

/-- A line that ceases to be active sends the ceasing notice (R172). -/
theorem moveLine_ceased (d : Fin 8) (st : LineState) (s : State) (h0 : s.dcu.lines[d].state.active = true)
    (h1 : st.active = false) :
    moveLine d st s =
      noticeCeased d s.dcu.lines[d].interval
        (setLine d (s.dcu.lines[d].moved st { clock := s.clock, stamp := s.now }) s) := by
  simp [moveLine, h0, h1, -Fin.getElem_fin]

/-- A line whose activity stays sends no notice. -/
theorem moveLine_same (d : Fin 8) (st : LineState) (s : State) (h : s.dcu.lines[d].state.active = st.active) :
    moveLine d st s = setLine d (s.dcu.lines[d].moved st { clock := s.clock, stamp := s.now }) s := by
  cases hst : st.active <;> rw [hst] at h <;> simp [moveLine, h, hst, -Fin.getElem_fin]

/-- The last release is set exactly at a move from an active state to RELEASED (R172). -/
theorem Line.moved_lastRelease (l : Line) (st : LineState) (m : Moment) :
    (l.moved st m).lastRelease = if l.state.active = true ∧ st = .released then some m else l.lastRelease := by
  simp [Line.moved]

@[simp] theorem refuseLine_dcu (d : Fin 8) (r : LineRequest) (y : DriveReason) (s : State) :
    (refuseLine d r y s).dcu = s.dcu := by simp

theorem safeChange_dcu (d : Fin 8) (st : LineState) (s : State) :
    (safeChange d st s).dcu = s.dcu.setLine d (s.dcu.lines[d].moved st { clock := s.clock, stamp := s.now }) := by
  unfold safeChange
  rw [moveLine_dcu]
  rfl

/-- After its SAFE step a line stands at its safe level, and no other line has moved (R182). -/
theorem safeLine_line (d b : Fin 8) (s : State) :
    (safeLine d s).dcu.lines[b].state =
        (if d = b then (if s.dcu.lines[d].safeAsserted then .asserted else .released) else s.dcu.lines[b].state) ∧
      (safeLine d s).dcu.lines[b].safeAsserted = s.dcu.lines[b].safeAsserted ∧
      (safeLine d s).dcu.mode = s.dcu.mode ∧ (safeLine d s).dcu.pairs = s.dcu.pairs ∧
      (safeLine d s).dcu.safeGuard = s.dcu.safeGuard := by
  unfold safeLine
  split <;> rename_i h h'
  all_goals
    simp only [safeChange_dcu, moveLine_dcu, refuseLine_dcu, Dcu.setLine_lines, Dcu.setLine_mode, Dcu.setLine_pairs,
      Dcu.setLine_safeGuard, put_get, and_true]
    by_cases e : d = b
    · subst e
      simp [h, h', Line.moved, -Fin.getElem_fin]
    · simp [e]

/-- The SAFE steps of a list of lines: each of them at its safe level, the others where they were. -/
theorem safeLines_line (l : List (Fin 8)) (b : Fin 8) (s : State) :
    (forEach l safeLine s).dcu.lines[b].state =
        (if b ∈ l then (if s.dcu.lines[b].safeAsserted then .asserted else .released) else s.dcu.lines[b].state) ∧
      (forEach l safeLine s).dcu.lines[b].safeAsserted = s.dcu.lines[b].safeAsserted ∧
      (forEach l safeLine s).dcu.pairs = s.dcu.pairs := by
  induction l generalizing s with
  | nil => simp
  | cons d l ih =>
    rw [forEach_cons]
    obtain ⟨h1, h2, h3⟩ := ih (safeLine d s)
    obtain ⟨g1, g2, g3, g4, g5⟩ := safeLine_line d b s
    refine ⟨?_, h2.trans g2, h3.trans g4⟩
    rw [h1, g1, g2]
    by_cases e : d = b
    · subst e
      simp
    · by_cases m : b ∈ l <;> simp [m, e, Ne.symm e]

/-- SAFE entry in SAFE changes nothing (R183). -/
theorem enterSafe_inSafe (s : State) (h : s.dcu.mode = .safe) : enterSafe s = s := by simp [enterSafe, h]

/-- After SAFE entry the part is in SAFE, every line at its safe level if it came from another mode (R182). -/
theorem enterSafe_mode (s : State) : (enterSafe s).dcu.mode = .safe := by
  unfold enterSafe
  split
  · assumption
  · rfl

theorem enterSafe_dcu (s : State) (h : s.dcu.mode ≠ .safe) :
    (enterSafe s).dcu = { (forEach (List.finRange 8) safeLine s).dcu with mode := .safe } := by
  simp only [enterSafe, if_neg h, setAlert_dcu]

theorem enterSafe_line (b : Fin 8) (s : State) (h : s.dcu.mode ≠ .safe) :
    (enterSafe s).dcu.lines[b].state = (if s.dcu.lines[b].safeAsserted then .asserted else .released) ∧
      (enterSafe s).dcu.lines[b].safeAsserted = s.dcu.lines[b].safeAsserted ∧
      (enterSafe s).dcu.pairs = s.dcu.pairs := by
  have e := safeLines_line (List.finRange 8) b s
  rw [if_pos (List.mem_finRange b)] at e
  rw [enterSafe_dcu s h]
  generalize (forEach (List.finRange 8) safeLine s).dcu = u at e ⊢
  exact e

end Sys2Proof.Machine
end

