-- ==== Sys2Proof/Laws/Link.lean ====
section
/-! SUPPORT. The request codes and lengths, and what arrival and egress do to the link's lists (chapter 10). -/

namespace Sys2Proof.Machine

/-! ## Request forms (R189, 11.1) -/

theorem requestForms_count : requestForms.length = 57 := by decide

theorem requestForms_nodup : (requestForms.map (·.code)).Nodup := by decide

/-- A length is allowed for a code where the code's form takes it in. -/
theorem lengthAllowed_iff (code : Byte) (n : Nat) :
    lengthAllowed code n = true ↔ ∃ f ∈ requestForms, f.code = code ∧ f.least ≤ n ∧ n ≤ f.most := by
  simp only [lengthAllowed, List.any_eq_true, Bool.and_eq_true, beq_iff_eq, decide_eq_true_eq]
  refine ⟨?_, ?_⟩
  · rintro ⟨f, hf, ⟨h1, h2⟩, h3⟩
    exact ⟨f, hf, h1, h2, h3⟩
  · rintro ⟨f, hf, h1, h2, h3⟩
    exact ⟨f, hf, ⟨h1, h2⟩, h3⟩

/-! ## Arrival (R188–R190) -/

theorem frameArrival_ignored (f : Frame) (s : State) (h : s.acceptsFrame f = false) : frameArrival f s = s := by
  simp [frameArrival, h]

theorem frameArrival_accepted (f : Frame) (s : State) (h : s.acceptsFrame f = true) :
    frameArrival f s = checkHeader (s.slu.ticketOf f) f { s with slu := s.slu.acceptFrame f } := by
  simp [frameArrival, h]

theorem checkHeader_bad (t : Ticket) (f : Frame) (s : State) (h : frameBad f = true) :
    checkHeader t f s = respond t .bad [] s := by simp [checkHeader, h]

theorem checkHeader_full (t : Ticket) (f : Frame) (s : State) (h : frameBad f = false)
    (hq : Config.ingressPlaces ≤ s.slu.ingress.length) : checkHeader t f s = respond t .full [] s := by
  simp [checkHeader, h, hq]

theorem checkHeader_queued (t : Ticket) (f : Frame) (s : State) (h : frameBad f = false)
    (hq : s.slu.ingress.length < Config.ingressPlaces) :
    checkHeader t f s =
      { s with
        slu :=
          { s.slu with
            ingress := s.slu.ingress ++ [{ ticket := t, payload := (f.payload.drop 8).take (frameLength f) }] } } := by
  simp [checkHeader, h, Nat.not_le.mpr hq]

/-! ## Egress (R193) -/

theorem linkEgress_waits (b : Bool) (s : State) (h : s.slu.sending ≠ none ∨ s.pins.linkDown = true) :
    linkEgress b s = s := by
  unfold linkEgress
  rw [if_neg]
  rintro ⟨h1, h2⟩
  rcases h with h | h
  · exact h h1
  · rw [h] at h2
    cases h2

/-- The oldest response goes first. -/
theorem egress_response (s : State) (r : Response) (rest : List Response) (h : s.slu.responses = r :: rest) :
    egress true s = { s with slu := { s.slu with responses := rest, sending := some (s.slu.responseFrame r) } } := by
  simp [egress, h]

/-- Without a response, and without a station address, nothing is sent. -/
theorem egress_noStation (b : Bool) (s : State) (h : s.slu.responses = []) (hs : s.slu.station = none) :
    egress b s = s := by simp [egress, h, hs]

/-- Then a due announcement. -/
theorem egress_alert (s : State) (a : LinkAddr) (h : s.slu.responses = []) (hs : s.slu.station = some a)
    (hd : s.slu.due = true) : egress true s = { s with slu := s.slu.announce a } := by simp [egress, h, hs, hd]

/-- Then an export frame. -/
theorem egress_export (b : Bool) (s : State) (a : LinkAddr) (h : s.slu.responses = []) (hs : s.slu.station = some a)
    (hd : s.slu.due = false) : egress b s = egressExport b a s := by simp [egress, h, hs, hd]

end Sys2Proof.Machine
end

