-- ==== Sys2Proof/Laws/Rails.lean ====
section
/-! SUPPORT. What the steps of a conversion and the notices of a line do to the Rail Monitor Unit. -/

namespace Sys2Proof.Machine

/-- The trip check does nothing below the trip level, with the level 0, or with the latch set (R49). -/
theorem tripStage_quiet (c : Fin 8) (k : Conversion) (j : Bool) (s : State)
    (h : s.rmu.channels[c].trips k.value = false) : tripStage c k j s = s := by
  simp only [tripStage, h]
  rfl

/-- A trip: the latch, RAIL-TRIP and its alert (R49). -/
theorem tripStage_trips (c : Fin 8) (k : Conversion) (j : Bool) (s u : State)
    (h : s.rmu.channels[c].trips k.value = true)
    (hu : u = setAlert .railTrip
      (produce (railRecord c .railTrip s.rmu.channels[c].window j k.value k.saturated false s.now)
        (setChannel c { s.rmu.channels[c] with tripped := true } s))) :
    tripStage c k j s = u := by
  subst hu
  simp only [tripStage, h, if_true]

/-- The protection request: SAFE entry if it goes out, nothing else (R50). -/
@[simp] theorem protectStage_sent (s : State) : protectStage true s = enterSafe s := rfl
@[simp] theorem protectStage_none (s : State) : protectStage false s = s := rfl

/-- No window step touches the trip latch, the trip level or the protect setting, so the protection request is decided by
the channel as the conversion found it. -/
theorem windowStep_trips (x : Channel) (v w : Nat) :
    (x.windowStep v).channel.trips w = x.trips w ∧ (x.windowStep v).channel.protect = x.protect := by
  unfold Channel.windowStep
  dsimp only
  split
  · simp [Channel.trips]
  · split <;> simp [Channel.trips]

theorem Channel.trips_iff (x : Channel) (v : Nat) :
    x.trips v = true ↔ 0 < x.trip ∧ x.trip ≤ v ∧ x.tripped = false := by
  simp [Channel.trips, and_assoc]

/-- The sample count of a channel with decimation N (R48). -/
theorem sampleStage_eq (c : Fin 8) (k : Conversion) (s : State) (x : Channel) (hx : x = s.rmu.channels[c]) :
    sampleStage c k s =
      if x.decim = 0 then s
      else if x.samples + 1 < x.decim then setChannel c { x with samples := x.samples + 1 } s
      else
        produce (railRecord c .railSample x.window false k.value k.saturated false s.now)
          (setChannel c { x with samples := 0 } s) := by
  subst hx
  by_cases h0 : s.rmu.channels[c].decim = 0
  · simp only [sampleStage, h0, if_true]
  · by_cases h1 : s.rmu.channels[c].samples + 1 < s.rmu.channels[c].decim
    · simp only [sampleStage, if_neg h0, if_neg (Nat.not_le.mpr h1), if_pos h1]
    · simp only [sampleStage, if_neg h0, if_pos (Nat.not_lt.mp h1), if_neg h1]

/-! ## Notices (R53, R54) -/

@[simp] theorem lineActive_lines (u : Rmu) (d : Fin 8) (m : BitVec 8) :
    (u.lineActive d m).lines = put u.lines d { active := true, mask := m } := rfl

/-- A line that becomes active blanks the channels its mask names, their latch taking the window state. -/
theorem lineActive_channel (u : Rmu) (d : Fin 8) (m : BitVec 8) (c : Fin 8) :
    (u.lineActive d m).channels[c] =
      if m.getLsbD c.val = true ∧ u.channels[c].blanked = false then
        { u.channels[c] with blanked := true, blankLatch := u.channels[c].window }
      else u.channels[c] := by
  simp only [Rmu.lineActive, mapEach_get, Channel.blank]
  cases m.getLsbD c.val <;> cases u.channels[c].blanked <;> simp

@[simp] theorem lineCeased_lines (u : Rmu) (d : Fin 8) (n : Nat) :
    (u.lineCeased d n).lines = put u.lines d { active := false, mask := u.lines[d].mask } := rfl

/-- A line that ceases to be active raises the blank holds of the channels it named. -/
theorem lineCeased_channel (u : Rmu) (d : Fin 8) (n : Nat) (c : Fin 8) :
    (u.lineCeased d n).channels[c] =
      if u.lines[d].mask.getLsbD c.val then
        { u.channels[c] with blankHold := max u.channels[c].blankHold (Config.clocksPerMs * n) }
      else u.channels[c] := by
  simp only [Rmu.lineCeased, mapEach_get]

/-- What the end of a blank does to the unit: the blank state of that channel, nothing else. -/
theorem endBlank_rmu (c : Fin 8) (s : State) :
    (endBlank c s).rmu =
      if s.rmu.blankOver c then s.rmu.setChannel c { s.rmu.channels[c] with blanked := false } else s.rmu := by
  unfold endBlank
  dsimp only
  split
  · split <;> simp only [produce_rmu, setChannel_rmu]
  · rfl

theorem endBlank_channel (c b : Fin 8) (s : State) :
    (endBlank c s).rmu.channels[b] =
      if s.rmu.blankOver c = true ∧ c = b then { s.rmu.channels[b] with blanked := false } else s.rmu.channels[b] := by
  simp only [endBlank_rmu]
  by_cases h : s.rmu.blankOver c = true
  · simp only [h, if_true, true_and, Rmu.setChannel_channels, put_get]
    by_cases e : c = b
    · subst e
      simp only [if_true]
    · simp only [if_neg e]
  · simp only [h, false_and, if_false, Bool.false_eq_true]

/-- No blank end touches the trip latch, the protect setting or the trip level of a channel. -/
theorem endBlank_trips (c b : Fin 8) (s : State) :
    (endBlank c s).rmu.channels[b].tripped = s.rmu.channels[b].tripped ∧
      (endBlank c s).rmu.channels[b].protect = s.rmu.channels[b].protect ∧
      (endBlank c s).rmu.channels[b].trip = s.rmu.channels[b].trip := by
  rw [endBlank_channel]
  split <;> simp

end Sys2Proof.Machine
end

