-- ==== Sys2Proof/Laws/Rings.lean ====
section
/-! SUPPORT. What writing, making room, streaming and reading do to a capture ring. -/

namespace Sys2Proof.Machine

/-! ## Words -/

@[simp] theorem wordsOf_nil : wordsOf [] = 0 := rfl

@[simp] theorem wordsOf_cons (e : Entry) (l : List Entry) : wordsOf (e :: l) = e.words + wordsOf l := by
  simp [wordsOf]

@[simp] theorem wordsOf_append (l m : List Entry) : wordsOf (l ++ m) = wordsOf l + wordsOf m := by simp [wordsOf]

theorem wordsOf_drop_le (n : Nat) (l : List Entry) : wordsOf (l.drop n) ≤ wordsOf l := by
  have h : wordsOf l = wordsOf (l.take n) + wordsOf (l.drop n) := by rw [← wordsOf_append, List.take_append_drop]
  omega

theorem Entry.words_pos (e : Entry) : 3 ≤ e.words := by cases e <;> simp [Entry.words]

/-! ## Writing an entry (R130, R131) -/

/-- The four causes of a MARK: an empty ring, mark-due, 64 entries since the last, a delta beyond 24 bits. -/
theorem Ring.needsMark_iff (r : Ring) (s ref : Stamp) (h : r.reference = some ref) :
    r.needsMark s = true ↔
      r.entries = [] ∨ r.markDue = true ∨ 64 ≤ r.sinceMark ∨ deltaOf s ref < -8388608 ∨ 8388607 < deltaOf s ref := by
  unfold Ring.needsMark deltaFits
  simp only [h, Bool.or_eq_true, List.isEmpty_iff, decide_eq_true_eq, Bool.not_eq_true', Bool.and_eq_false_iff,
    decide_eq_false_iff_not]
  rw [or_assoc, or_assoc]
  refine or_congr_right (or_congr_right (or_congr_right ?_))
  omega

/-- With a MARK: the stamp becomes the reference, and the entry's delta is 0. -/
theorem Ring.write_marked (r : Ring) (s : Stamp) (e : Int → Entry) (h : r.needsMark s = true) :
    r.write s e =
      { r with
        entries := r.entries ++ [.mark s, e 0], reference := some s, markDue := false, sinceMark := 1
        head := if r.entries.isEmpty then some s else r.head } := by
  simp [Ring.write, Ring.marked, h, Ring.pushMark, deltaOf]

/-- Without one: the delta from the reference in force. -/
theorem Ring.write_plain (r : Ring) (s ref : Stamp) (e : Int → Entry) (h : r.needsMark s = false)
    (hr : r.reference = some ref) :
    r.write s e = { r with entries := r.entries ++ [e (deltaOf s ref)], sinceMark := r.sinceMark + 1 } := by
  simp [Ring.write, Ring.marked, h, hr]

/-- A ring needs a MARK where it has no reference. -/
theorem Ring.needsMark_none (r : Ring) (s : Stamp) (h : r.reference = none) : r.needsMark s = true := by
  simp [Ring.needsMark, h]

/-- What a write adds: perhaps a MARK, then the entry. -/
theorem Ring.write_entries (r : Ring) (s : Stamp) (e : Int → Entry) :
    ∃ d, (r.write s e).entries = r.entries ++ (if r.needsMark s then [.mark s] else []) ++ [e d] := by
  by_cases h : r.needsMark s = true
  · exact ⟨0, by rw [Ring.write_marked r s e h]; simp [h]⟩
  · simp only [Bool.not_eq_true] at h
    cases hr : r.reference with
    | none => exact absurd (Ring.needsMark_none r s hr) (by simp [h])
    | some ref => exact ⟨deltaOf s ref, by rw [Ring.write_plain r s ref e h hr]; simp [h]⟩

/-- The words a write fills are those it needs. -/
theorem Ring.write_occupancy (r : Ring) (s : Stamp) (e : Int → Entry) (he : ∀ d, (e d).words = (e 0).words) :
    (r.write s e).occupancy = r.occupancy + r.needs s e := by
  obtain ⟨d, h⟩ := r.write_entries s e
  simp only [Ring.occupancy, h, Ring.needs, wordsOf_append, wordsOf_cons, wordsOf_nil, he d]
  split
  · simp [Entry.words]
    omega
  · simp [Entry.words]

theorem Ring.write_fixed (r : Ring) (s : Stamp) (e : Int → Entry) :
    (r.write s e).mode = r.mode ∧ (r.write s e).base = r.base ∧ (r.write s e).size = r.size ∧
      (r.write s e).post = r.post ∧ (r.write s e).priority = r.priority ∧ (r.write s e).state = r.state ∧
      (r.write s e).dropped = r.dropped ∧ (r.write s e).trig = r.trig ∧ (r.write s e).written = r.written ∧
      (r.write s e).truncated = r.truncated ∧ (r.write s e).stopped = r.stopped := by
  simp only [Ring.write, Ring.marked]
  split <;> simp [Ring.pushMark]

/-! ## Making room (R135, R137) -/

/-- Groups are dropped from the oldest end, and settings, state and counts stay. -/
theorem Ring.makeRoom_drops (need n : Nat) (r : Ring) :
    (∃ k, (r.makeRoom need n).1.entries = r.entries.drop k) ∧ (r.makeRoom need n).1.mode = r.mode ∧
      (r.makeRoom need n).1.base = r.base ∧ (r.makeRoom need n).1.size = r.size ∧
      (r.makeRoom need n).1.post = r.post ∧ (r.makeRoom need n).1.priority = r.priority ∧
      (r.makeRoom need n).1.state = r.state ∧ (r.makeRoom need n).1.reference = r.reference ∧
      (r.makeRoom need n).1.markDue = r.markDue ∧ (r.makeRoom need n).1.sinceMark = r.sinceMark ∧
      (r.makeRoom need n).1.dropped = r.dropped ∧ (r.makeRoom need n).1.written = r.written ∧
      (r.makeRoom need n).1.truncated = r.truncated ∧ (r.makeRoom need n).1.stopped = r.stopped := by
  induction n generalizing r with
  | zero => exact ⟨⟨0, rfl⟩, by simp [Ring.makeRoom]⟩
  | succ n ih =>
    unfold Ring.makeRoom
    split
    · exact ⟨⟨0, rfl⟩, by simp⟩
    · split
      · exact ⟨⟨0, rfl⟩, by simp⟩
      · obtain ⟨⟨k, hk⟩, h⟩ := ih r.dropGroup
        exact ⟨⟨(oldestGroup r.entries).length + k, by rw [hk]; simp [Ring.dropGroup]⟩, by simpa [Ring.dropGroup] using h⟩

/-- Where it succeeds, the room suffices. -/
theorem Ring.makeRoom_room (need n : Nat) (r : Ring) (h : (r.makeRoom need n).2 = true) :
    need ≤ (r.makeRoom need n).1.room := by
  induction n generalizing r with
  | zero => simpa [Ring.makeRoom] using h
  | succ n ih =>
    unfold Ring.makeRoom at h ⊢
    split
    · assumption
    · rename_i h0
      rw [if_neg h0] at h
      split
      · rename_i h1
        rw [if_pos h1] at h
        exact absurd h (by simp)
      · rename_i h1
        rw [if_neg h1] at h
        exact ih _ h

/-- A ring with the room drops nothing. -/
theorem Ring.makeRoom_enough (need n : Nat) (r : Ring) (h : need ≤ r.room) : r.makeRoom need n = (r, true) := by
  cases n <;> simp [Ring.makeRoom, h]

/-- A ring that holds entries has a first group, so a drop removes something. -/
theorem oldestGroup_length (e : Entry) (l : List Entry) :
    1 ≤ (oldestGroup (e :: l)).length ∧ (oldestGroup (e :: l)).length ≤ l.length + 1 := by
  simp only [oldestGroup, List.length_cons]
  have := (List.takeWhile_sublist (fun x : Entry => !x.isMark) (l := l)).length_le
  omega

/-- After a group is dropped, what is left begins with a MARK. -/
theorem oldestGroup_rest (l : List Entry) : ∀ e ∈ (l.drop (oldestGroup l).length).head?, e.isMark = true := by
  cases l with
  | nil => simp [oldestGroup]
  | cons x l =>
    simp only [oldestGroup, List.length_cons, List.drop_succ_cons]
    induction l with
    | nil => simp
    | cons y l ih =>
      by_cases hy : y.isMark = true
      · simp [hy]
      · simpa [hy] using ih

/-- Inside the oldest group no entry but the first is a MARK. -/
theorem oldestGroup_inside (l : List Entry) (j : Nat) (h0 : 0 < j) (h1 : j < (oldestGroup l).length) :
    ∃ x ∈ (l.drop j).head?, x.isMark = false := by
  cases l with
  | nil => simp [oldestGroup] at h1
  | cons x l =>
    obtain ⟨j, rfl⟩ : ∃ i, j = i + 1 := ⟨j - 1, by omega⟩
    simp only [oldestGroup, List.length_cons, Nat.add_lt_add_iff_right, List.drop_succ_cons] at h1 ⊢
    clear h0
    induction l generalizing j with
    | nil => simp at h1
    | cons y l ih =>
      by_cases hy : y.isMark = true
      · simp [hy] at h1
      · cases j with
        | zero => exact ⟨y, by simp, by simpa using hy⟩
        | succ j =>
          simp only [hy, Bool.not_false, List.takeWhile_cons_of_pos, List.length_cons, Nat.add_lt_add_iff_right,
            List.drop_succ_cons] at h1 ⊢
          exact ih j h1

/-- What making room removes: k entries from the oldest end, in whole groups and no group more than the room needs; the
TRIG position falls with them, and the head reference follows the MARK at the oldest end. -/
theorem Ring.makeRoom_groups (need n : Nat) (r : Ring) :
    ∃ k ≤ r.entries.length, (r.makeRoom need n).1.entries = r.entries.drop k ∧
      (r.makeRoom need n).1.trig = r.trig.map (fun i => i - k) ∧
      (0 < k → (r.makeRoom need n).1.head = headStamp (r.entries.drop k)) ∧
      (k = 0 → r.entries ≠ [] → (r.makeRoom need n).1.head = r.head) ∧
      (r.entries = [] → r.head = none → (r.makeRoom need n).1.head = none) ∧
      (0 < k → ∀ x ∈ (r.entries.drop k).head?, x.isMark = true) ∧
      (∀ j < k, (∀ x ∈ (r.entries.drop j).head?, x.isMark = true) → r.capacity < wordsOf (r.entries.drop j) + need) := by
  induction n generalizing r with
  | zero => exact ⟨0, by simp, rfl, by simp [Ring.makeRoom], by simp, by simp [Ring.makeRoom], by simp [Ring.makeRoom],
      by simp, by simp⟩
  | succ n ih =>
    unfold Ring.makeRoom
    split
    · exact ⟨0, by simp, rfl, by simp, by simp, by simp, by simp, by simp, by simp⟩
    · rename_i hroom
      split
      · exact ⟨0, by simp, rfl, by simp, by simp, by simp, by simp, by simp, by simp⟩
      · obtain ⟨k, hk, he, ht, hh, hh0, hhn, hm, hj⟩ := ih r.dropGroup
        have hg : (oldestGroup r.entries).length ≤ r.entries.length := by
          cases hl : r.entries with
          | nil => simp [oldestGroup]
          | cons e l => have := oldestGroup_length e l; simp only [List.length_cons]; omega
        have hd : r.dropGroup.entries = r.entries.drop (oldestGroup r.entries).length := rfl
        have hcap : r.dropGroup.capacity = r.capacity := rfl
        simp only [hd, List.drop_drop, List.length_drop, hcap] at hk he hh hm hj
        have hrest := oldestGroup_rest r.entries
        refine ⟨(oldestGroup r.entries).length + k, by omega, he, ?_, ?_, ?_, ?_, ?_, ?_⟩
        · rw [ht]
          cases h : r.trig <;> simp [Ring.dropGroup, h]
          omega
        · intro hp
          by_cases hk0 : 0 < k
          · exact hh hk0
          · have hk0 : k = 0 := by omega
            subst hk0
            by_cases hr : r.dropGroup.entries = []
            · rw [hhn hr (by simp only [Ring.dropGroup] at hr ⊢; simp [hr, headStamp]), Nat.add_zero, ← hd, hr, headStamp]
              simp
            · rw [hh0 rfl hr]; rfl
        · intro h0 hne
          cases hl : r.entries with
          | nil => exact absurd hl hne
          | cons e l => have := oldestGroup_length e l; rw [hl] at h0; omega
        · intro hr _
          exact hhn (by simp [hd, hr]) (by simp [Ring.dropGroup, hr, headStamp])
        · intro hp
          by_cases hk0 : 0 < k
          · exact hm hk0
          · have hk0 : k = 0 := by omega
            subst hk0
            exact hrest
        · intro j hlt hmark
          by_cases hjg : j < (oldestGroup r.entries).length
          · by_cases hj0 : 0 < j
            · obtain ⟨x, hx, hx2⟩ := oldestGroup_inside r.entries j hj0 hjg
              have := hmark x hx
              simp [hx2] at this
            · have hj0 : j = 0 := by omega
              subst hj0
              simp only [List.drop_zero]
              simp only [Ring.room, Ring.occupancy] at hroom
              omega
          · have := hj (j - (oldestGroup r.entries).length) (by omega)
            rw [show (oldestGroup r.entries).length + (j - (oldestGroup r.entries).length) = j by omega] at this
            exact this hmark

/-- Where no TRIG entry is held, and the ring can hold the entry alone, making room succeeds. -/
theorem Ring.makeRoom_succeeds (need n : Nat) (r : Ring) (ht : r.trig = none) (hn : r.entries.length ≤ n)
    (hc : need ≤ r.capacity) : (r.makeRoom need n).2 = true := by
  induction n generalizing r with
  | zero =>
    have : r.entries = [] := by simpa using hn
    simp [Ring.makeRoom, Ring.room, Ring.occupancy, this, hc]
  | succ n ih =>
    unfold Ring.makeRoom
    split
    · rfl
    · rename_i hroom
      have h1 : ¬r.trigOldest = true := by simp [Ring.trigOldest, ht]
      rw [if_neg h1]
      apply ih
      · simp [Ring.dropGroup, ht]
      · cases hl : r.entries with
        | nil => simp [Ring.dropGroup, hl]
        | cons e l =>
          have := oldestGroup_length e l
          rw [hl] at hn
          simp only [Ring.dropGroup, hl, List.length_drop, List.length_cons] at hn ⊢
          omega
      · exact hc

/-! ## Stream rings (R142, R143) -/

/-- With nothing dropped, the write is the entry's alone. -/
theorem Ring.streamed_whole (r : Ring) (s : Stamp) (e : Int → Entry) (h : r.dropped = 0) :
    r.streamed s e = r.write s e := by simp [Ring.streamed, h]

/-- With entries dropped, a GAP with their count comes first, and the count is 0. -/
theorem Ring.streamed_gap (r : Ring) (s : Stamp) (e : Int → Entry) (h : r.dropped ≠ 0) :
    r.streamed s e = ({ r.write s (fun d => .gap d r.dropped) with dropped := 0 } : Ring).write s e := by
  simp [Ring.streamed, h]

theorem Ring.streamed_dropped (r : Ring) (s : Stamp) (e : Int → Entry) : (r.streamed s e).dropped = 0 := by
  by_cases h : r.dropped = 0
  · rw [Ring.streamed_whole r s e h, (r.write_fixed s e).2.2.2.2.2.2.1, h]
  · rw [Ring.streamed_gap r s e h, (Ring.write_fixed _ s e).2.2.2.2.2.2.1]

/-- An offer that does not fit is dropped and counted. -/
theorem Ring.offerStream_drops (r : Ring) (s : Stamp) (e : Int → Entry)
    (h : r.capacity < (r.streamed s e).occupancy) :
    r.offerStream s e = { r with dropped := min (2 ^ 32 - 1) (r.dropped + 1) } := by
  simp [Ring.offerStream, Nat.not_le.mpr h]

/-- One that fits is written whole. -/
theorem Ring.offerStream_writes (r : Ring) (s : Stamp) (e : Int → Entry)
    (h : (r.streamed s e).occupancy ≤ r.capacity) : r.offerStream s e = r.streamed s e := by
  simp [Ring.offerStream, h]

theorem Ring.offerStream_within (r : Ring) (s : Stamp) (e : Int → Entry) (h : r.occupancy ≤ r.capacity) :
    (r.offerStream s e).occupancy ≤ r.capacity := by
  by_cases hw : (r.streamed s e).occupancy ≤ r.capacity
  · rw [r.offerStream_writes s e hw]
    exact hw
  · rw [r.offerStream_drops s e (Nat.not_le.mp hw)]
    exact h

/-! ## Offers (R134) -/

theorem offer_discarded (i : Fin 4) (r : Record) (x : Bool) (s : State)
    (h : s.cst.rings[i].state = .disabled ∨ s.cst.rings[i].state = .ready ∨ s.cst.rings[i].state = .frozen) :
    offer i r x s = s := by
  unfold offer
  dsimp only
  rcases h with h | h | h <;> simp only [h]

theorem offer_window (i : Fin 4) (r : Record) (x : Bool) (s : State) (o : Ring × Bool)
    (h : s.cst.rings[i].state = .running ∨ s.cst.rings[i].state = .post)
    (ho : o = s.cst.rings[i].offerWindow r.stamp (ordinaryEntry r x)) :
    offer i r x s = if o.2 then frozenNotice i (setRing i o.1 s) else setRing i o.1 s := by
  subst ho
  unfold offer
  dsimp only
  rcases h with h | h <;> simp only [h]

theorem offer_stream (i : Fin 4) (r : Record) (x : Bool) (s : State) (h : s.cst.rings[i].state = .streaming) :
    offer i r x s =
      if s.cst.rings[i].beginsGap r.stamp (ordinaryEntry r x) then
        setAlert .ringGap (setRing i (s.cst.rings[i].offerStream r.stamp (ordinaryEntry r x)) s)
      else setRing i (s.cst.rings[i].offerStream r.stamp (ordinaryEntry r x)) s := by
  unfold offer
  dsimp only
  simp only [h]

/-! ## Reading (R144–R146) -/

/-- What is taken is a front part of the entries. -/
theorem takeFit_prefix (w n : Nat) (l : List Entry) : takeFit w n l <+: l := by
  induction l generalizing w n with
  | nil => simp [takeFit]
  | cons e l ih =>
    cases n with
    | zero => simp [takeFit]
    | succ n =>
      unfold takeFit
      split
      · exact (List.prefix_cons_inj e).mpr (ih _ _)
      · simp

theorem takeFit_fits (w n : Nat) (l : List Entry) : wordsOf (takeFit w n l) ≤ w ∧ (takeFit w n l).length ≤ n := by
  induction l generalizing w n with
  | nil => simp [takeFit]
  | cons e l ih =>
    cases n with
    | zero => simp [takeFit]
    | succ n =>
      unfold takeFit
      split
      · have := ih (w - e.words) n
        simp
        omega
      · simp

/-- It is as much as fits: the next entry would not. -/
theorem takeFit_most (w n : Nat) (l : List Entry) (h : (takeFit w n l).length < n) (e : Entry)
    (he : l[(takeFit w n l).length]? = some e) : w < wordsOf (takeFit w n l) + e.words := by
  induction l generalizing w n with
  | nil => simp at he
  | cons x l ih =>
    cases n with
    | zero => simp at h
    | succ n =>
      unfold takeFit at h he ⊢
      split
      · rename_i hx
        rw [if_pos hx] at h he
        have := ih (w - x.words) n (by simpa using h) (by simpa using he)
        simp
        omega
      · rename_i hx
        rw [if_neg hx] at he
        simp at he
        subst he
        simp
        omega

/-- Whether a ring may be exported from. -/
def Cst.offers (c : Cst) (i : Fin 4) : Prop := c.rings[i].state = .streaming ∧ c.rings[i].entries ≠ []

/-- The ring of highest priority, then of lowest number, among those a list of ring numbers in rising order offers. -/
theorem exportRing_of_list (c : Cst) (l : List (Fin 4)) (hl : l.Pairwise (· < ·)) (best : Option (Fin 4))
    (hb : ∀ b ∈ best, c.offers b ∧ ∀ i ∈ l, b < i) :
    let res := l.foldl
      (fun best i =>
        let r := c.rings[i]
        if r.state = .streaming ∧ r.entries ≠ [] then
          match best with
          | none => some i
          | some b => if c.rings[b].priority < r.priority then some i else best
        else best) best
    (res = none ↔ best = none ∧ ∀ i ∈ l, ¬c.offers i) ∧
      ∀ x ∈ res, c.offers x ∧ (x ∈ l ∨ best = some x) ∧
        ∀ j, (j ∈ l ∨ best = some j) → c.offers j →
          c.rings[j].priority ≤ c.rings[x].priority ∧ (c.rings[j].priority = c.rings[x].priority → x ≤ j) := by
  induction l generalizing best with
  | nil =>
    dsimp only [List.foldl_nil]
    refine ⟨by simp, fun x hx => ⟨(hb x hx).1, .inr hx, ?_⟩⟩
    rintro j (hj | hj) _
    · cases hj
    · cases (Option.some.inj (hj.symm.trans hx))
      exact ⟨le_refl _, fun _ => le_refl _⟩
  | cons i l ih =>
    have hi : ∀ j ∈ l, i < j := (List.pairwise_cons.mp hl).1
    have hl' := (List.pairwise_cons.mp hl).2
    dsimp only [List.foldl_cons]
    by_cases ho : c.rings[i].state = .streaming ∧ c.rings[i].entries ≠ []
    · rw [if_pos ho]
      cases best with
      | none =>
        have hbi : ∀ b ∈ some i, c.offers b ∧ ∀ k ∈ l, b < k := by
          rintro b ⟨rfl⟩
          exact ⟨ho, hi⟩
        obtain ⟨h1, h2⟩ := ih hl' (some i) hbi
        refine ⟨?_, fun x hx => ?_⟩
        · rw [h1]
          simp only [reduceCtorEq, false_and, true_and, false_iff, not_forall]
          exact ⟨i, List.mem_cons_self, fun hn => hn ho⟩
        · obtain ⟨g1, g2, g3⟩ := h2 x hx
          refine ⟨g1, .inl ?_, fun j hj hoj => g3 j ?_ hoj⟩
          · rcases g2 with g | g
            · exact List.mem_cons_of_mem _ g
            · cases Option.some.inj g
              exact List.mem_cons_self
          · rcases hj with hj | hj
            · rcases List.mem_cons.mp hj with rfl | hj
              · exact .inr rfl
              · exact .inl hj
            · cases hj
      | some b =>
        obtain ⟨hob, hlt⟩ := hb b rfl
        have hbi : b < i := hlt i List.mem_cons_self
        by_cases hp : c.rings[b].priority < c.rings[i].priority
        · dsimp only
          rw [if_pos hp]
          obtain ⟨h1, h2⟩ := ih hl' (some i) (by
            rintro b ⟨rfl⟩
            exact ⟨ho, hi⟩)
          refine ⟨by rw [h1]; simp, fun x hx => ?_⟩
          obtain ⟨g1, g2, g3⟩ := h2 x hx
          refine ⟨g1, .inl ?_, fun j hj hoj => ?_⟩
          · rcases g2 with g | g
            · exact List.mem_cons_of_mem _ g
            · cases Option.some.inj g
              exact List.mem_cons_self
          · rcases hj with hj | hj
            · rcases List.mem_cons.mp hj with rfl | hj
              · exact g3 _ (.inr rfl) hoj
              · exact g3 j (.inl hj) hoj
            · cases Option.some.inj hj
              have := (g3 i (.inr rfl) ho).1
              exact ⟨by omega, fun e => by omega⟩
        · dsimp only
          rw [if_neg hp]
          obtain ⟨h1, h2⟩ := ih hl' (some b) (by
            rintro b' ⟨rfl⟩
            exact ⟨hob, fun k hk => hlt k (List.mem_cons_of_mem _ hk)⟩)
          refine ⟨by rw [h1]; simp, fun x hx => ?_⟩
          obtain ⟨g1, g2, g3⟩ := h2 x hx
          refine ⟨g1, g2.imp (List.mem_cons_of_mem _) id, fun j hj hoj => ?_⟩
          rcases hj with hj | hj
          · rcases List.mem_cons.mp hj with rfl | hj
            · obtain ⟨k1, k2⟩ := g3 b (.inr rfl) hob
              refine ⟨by omega, fun e => le_trans (k2 (by omega)) (le_of_lt hbi)⟩
            · exact g3 j (.inl hj) hoj
          · exact g3 j (.inr hj) hoj
    · rw [if_neg ho]
      obtain ⟨h1, h2⟩ := ih hl' best (fun b hb' => ⟨(hb b hb').1, fun k hk => (hb b hb').2 k (List.mem_cons_of_mem _ hk)⟩)
      refine ⟨?_, fun x hx => ?_⟩
      · rw [h1]
        refine and_congr_right fun _ => ⟨fun h k hk => ?_, fun h k hk => h k (List.mem_cons_of_mem _ hk)⟩
        rcases List.mem_cons.mp hk with rfl | hk
        · exact ho
        · exact h k hk
      · obtain ⟨g1, g2, g3⟩ := h2 x hx
        refine ⟨g1, g2.imp (List.mem_cons_of_mem _) id, fun j hj hoj => ?_⟩
        rcases hj with hj | hj
        · rcases List.mem_cons.mp hj with rfl | hj
          · exact absurd hoj ho
          · exact g3 j (.inl hj) hoj
        · exact g3 j (.inr hj) hoj

/-- The ring an export frame is formed from (R144). -/
theorem exportRing_spec (c : Cst) :
    (c.exportRing = none ↔ ∀ i, ¬c.offers i) ∧
      ∀ x ∈ c.exportRing, c.offers x ∧
        ∀ j, c.offers j →
          c.rings[j].priority ≤ c.rings[x].priority ∧ (c.rings[j].priority = c.rings[x].priority → x ≤ j) := by
  have h := exportRing_of_list c (List.finRange 4) (by decide) none (by simp)
  refine ⟨?_, fun x hx => ?_⟩
  · exact h.1.trans ⟨fun g i => g.2 i (List.mem_finRange i), fun g => ⟨rfl, fun i _ => g i⟩⟩
  · obtain ⟨g1, _, g3⟩ := h.2 x hx
    exact ⟨g1, fun j hj => g3 j (.inl (List.mem_finRange j)) hj⟩

end Sys2Proof.Machine
end

