-- ==== Sys2Proof/Laws/Scans.lean ====
section
/-! SUPPORT. What a verdict, an edge and an end do to the scan in progress (chapter 8). -/

namespace Sys2Proof.Machine

variable {s : State} {r : Running}

/-! ## The verdict (R159, R166) -/

theorem scanVerdict_other (refused : Bool) (h : s.sce.phase ≠ .guard ∨ s.sce.running = none) : scanVerdict refused s = s := by
  unfold scanVerdict
  split
  · rename_i r e1 e2
    rcases h with h | h
    · exact absurd e1 h
    · rw [h] at e2
      cases e2
  · rfl

theorem scanVerdict_aborted (refused : Bool) (hp : s.sce.phase = .guard) (hr : s.sce.running = some r)
    (ha : r.abortTaken = true) :
    scanVerdict refused s = arbitrate (failUndriven r.origin r.scan (.aborted, .aborted) s) := by
  simp [scanVerdict, hp, hr, ha]

theorem scanVerdict_refused (hp : s.sce.phase = .guard) (hr : s.sce.running = some r) (ha : r.abortTaken = false) :
    scanVerdict true s = arbitrate (failUndriven r.origin r.scan (.guarded, .guarded) s) := by
  simp [scanVerdict, hp, hr, ha]

theorem scanVerdict_fault (f : Status × ScanReason) (hp : s.sce.phase = .guard) (hr : s.sce.running = some r)
    (ha : r.abortTaken = false) (hf : startFault r.scan s = some f) :
    scanVerdict false s = arbitrate (failUndriven r.origin r.scan f s) := by
  simp [scanVerdict, hp, hr, ha, hf]

theorem scanVerdict_go (hp : s.sce.phase = .guard) (hr : s.sce.running = some r) (ha : r.abortTaken = false)
    (hf : startFault r.scan s = none) : scanVerdict false s = beginShift r s := by
  simp [scanVerdict, hp, hr, ha, hf]

/-! ## The arbiter (R157) -/

theorem arbitrateFor_busy (n : Nat) (h : s.sce.phase ≠ .free) : arbitrateFor n s = s := by
  cases n with
  | zero => rfl
  | succ n => exact if_neg h

/-- An engine that is not FREE takes nothing. -/
theorem arbitrate_busy (h : s.sce.phase ≠ .free) : arbitrate s = s := arbitrateFor_busy _ h

/-- Nothing waits. -/
theorem arbitrate_idle (h : s.sce.next = none) : arbitrate s = s := by
  simp [arbitrate, arbitrateFor, h]

/-! ## Clocks (R150, R151) -/

/-- An engine that drives no clock has no edge, timeout or completion due. -/
theorem noEvent_of_not_drives (u : Sce) (h : u.drives = false) :
    u.edgeDue = false ∧ u.fallDue = false ∧ u.timeoutDue = false ∧ u.abortDue = false ∧ u.completeDue = false := by
  have hs : u.phase ≠ .shift := by
    intro e
    simp [Sce.drives, e] at h
  simp [Sce.edgeDue, Sce.fallDue, Sce.timeoutDue, Sce.abortDue, Sce.completeDue, h, hs]

/-- Without RCLK pacing every edge counts as followed at once. -/
theorem rise_unpaced (u : Sce) (tdo : Bool) (ht : u.timeout = 0) (hd : u.edgeDue = true) (hl : u.tck = false) :
    u.rise tdo =
      { u with tck := true, edgeClocks := 0, followed := true, running := u.running.map (·.sample tdo) } := by
  simp [Sce.rise, hd, hl, ht]

/-- With it, the rising edge waits for RCLK. -/
theorem rise_paced (u : Sce) (tdo : Bool) (ht : u.timeout ≠ 0) (hd : u.edgeDue = true) (hl : u.tck = false) :
    u.rise tdo = { u with tck := true, edgeClocks := 0, followed := false } := by
  simp [Sce.rise, hd, hl, ht]

theorem rise_notDue (u : Sce) (tdo : Bool) (hd : u.edgeDue = false ∨ u.tck = true) : u.rise tdo = u := by
  rcases hd with h | h <;> simp [Sce.rise, h]

/-- RCLK shows the level of an edge not yet followed. -/
theorem follow_now (u : Sce) (rclk tdo : Bool) (hf : u.followed = false) (hr : rclk = u.tck) :
    u.follow rclk tdo =
      { u with followed := true, running := if u.tck then u.running.map (·.sample tdo) else u.running } := by
  simp [Sce.follow, hf, hr]

theorem follow_not (u : Sce) (rclk tdo : Bool) (h : u.followed = true ∨ rclk ≠ u.tck) : u.follow rclk tdo = u := by
  rcases h with h | h <;> simp [Sce.follow, h]

/-- An engine that drives no clock samples nothing. -/
theorem sampled_idle (u : Sce) (rclk tdo : Bool) (h : u.drives = false) : u.sampled rclk tdo = u := by
  simp [Sce.sampled, h]

/-- While RCLK has not followed the last edge of a scan, neither of its ends is due. -/
theorem noEnd_unfollowed (u : Sce) (h : u.followed = false) : u.completeDue = false ∧ u.abortDue = false := by
  simp [Sce.completeDue, Sce.abortDue, h]

/-- With TCK high a sample only follows. -/
theorem sampled_high (u : Sce) (rclk tdo : Bool) (h : u.drives = true) (ht : u.tck = true) :
    u.sampled rclk tdo = u.follow rclk tdo := by
  have hf : (u.follow rclk tdo).tck = true := by
    unfold Sce.follow
    split <;> exact ht
  rw [Sce.sampled, if_pos h, rise_notDue _ _ (.inr hf)]

/-- With TCK low and the half period passed, the sample that RCLK follows with drives the rising edge. -/
theorem sampled_rises (u : Sce) (tdo : Bool) (h : u.drives = true) (hf : u.followed = false) (ht : u.tck = false)
    (hh : u.half ≤ u.edgeClocks) (hr : (u.running.any fun r => !r.plan.isEmpty) = true) (ht0 : u.timeout ≠ 0) :
    u.sampled false tdo = { u with tck := true, edgeClocks := 0, followed := false } := by
  have h2 : ({ u with followed := true } : Sce).drives = true := h
  have h3 : ({ u with followed := true } : Sce).half ≤ u.edgeClocks := hh
  have hd : ({ u with followed := true } : Sce).edgeDue = true := by
    rw [Sce.edgeDue, h2]
    simp [h3, hr]
  have hs : u.follow false tdo = { u with followed := true } := by
    rw [follow_now u false tdo hf ht.symm]
    simp [ht]
  rw [Sce.sampled, if_pos h, hs]
  exact rise_paced _ tdo ht0 hd ht

/-! ## Ends (R161–R163) -/

theorem scanPowerEdge_other (lane : Fin 16) (level : Bool) (h : s.sce.powerLane ≠ some lane ∨ level = s.sce.powerLevel) :
    scanPowerEdge lane level s = s := by
  unfold scanPowerEdge
  rw [if_neg]
  rintro ⟨h1, h2⟩
  rcases h with h | h
  · exact h h1
  · exact h2 h

theorem scanPowerEdge_driving (lane : Fin 16) (level : Bool) (hl : s.sce.powerLane = some lane)
    (hv : level ≠ s.sce.powerLevel) (hd : s.sce.drives = true) : scanPowerEdge lane level s = scanFault .noPower .noPower s := by
  simp [scanPowerEdge, hl, hv, hd]

theorem scanPowerEdge_still (lane : Fin 16) (level : Bool) (hl : s.sce.powerLane = some lane)
    (hv : level ≠ s.sce.powerLevel) (hd : s.sce.drives = false) :
    scanPowerEdge lane level s = { s with sce := { s.sce with tracked := .unknown } } := by
  simp [scanPowerEdge, hl, hv, hd]

end Sys2Proof.Machine
end

