-- ==== Sys2Proof/Laws/Sequencer.lean ====
section
/-! SUPPORT. What a class, a branch and a branch action do at the sequencer, and the stages of a deciding entry. -/

namespace Sys2Proof.Machine

/-! ## Branches (R103–R105) -/

theorem Branch.accepts_iff (b : Branch) (k : Fin 20) : b.accepts k = true ↔ b.enabled = true ∧ b.cls = k := by
  simp [Branch.accepts]

/-- Branch A matches. -/
theorem compareClass_a (k : Fin 20) (v : Stamp) (s : State) (h : (s.tsq.levels[s.tsq.level]).a.accepts k = true) :
    compareClass k v s =
      takeBranch (s.tsq.levels[s.tsq.level]).a { level := s.tsq.level, branch := some .a, cls := some k } v s := by
  simp only [compareClass, h, if_true]

/-- Branch B matches and A does not. -/
theorem compareClass_b (k : Fin 20) (v : Stamp) (s : State) (ha : (s.tsq.levels[s.tsq.level]).a.accepts k = false)
    (h : (s.tsq.levels[s.tsq.level]).b.accepts k = true) :
    compareClass k v s =
      takeBranch (s.tsq.levels[s.tsq.level]).b { level := s.tsq.level, branch := some .b, cls := some k } v s := by
  simp only [compareClass, ha, h, if_true, Bool.false_eq_true, if_false]

/-- No branch matches. -/
theorem compareClass_none (k : Fin 20) (v : Stamp) (s : State) (ha : (s.tsq.levels[s.tsq.level]).a.accepts k = false)
    (h : (s.tsq.levels[s.tsq.level]).b.accepts k = false) : compareClass k v s = s := by
  simp only [compareClass, ha, h, Bool.false_eq_true, if_false]

theorem takeBranch_stay (b : Branch) (c : Cause) (v : Stamp) (s : State) (h : b.next = .stay) :
    takeBranch b c v s = forEach b.actions branchAction s := by simp only [takeBranch, h]

theorem takeBranch_level (b : Branch) (c : Cause) (v : Stamp) (s : State) (l : Fin 8) (h : b.next = .level l) :
    takeBranch b c v s =
      { forEach b.actions branchAction s with
        tsq := { (forEach b.actions branchAction s).tsq with level := l } } := by simp only [takeBranch, h]

theorem takeBranch_trigger (b : Branch) (c : Cause) (v : Stamp) (s : State) (h : b.next = .trigger) :
    takeBranch b c v s = triggerRun v c (forEach b.actions branchAction s) := by simp only [takeBranch, h]

/-! ## Deliveries and ticks (R101, R109, R112) -/

/-- A sequencer that is not ARMED takes no class and counts no tick. -/
theorem deliverClass_notArmed (e : Fin 16) (v : Stamp) (s : State) (h : s.tsq.run ≠ .armed) : deliverClass e v s = s :=
  if_neg h

theorem sequencerTick_notArmed (s : State) (h : s.tsq.run ≠ .armed) : sequencerTick s = s := if_neg h

theorem tick_none (s : State) (h : s.tbu.tickDue = false) : tick s = s := by simp [tick, h]

/-! ## The stages of a deciding entry (R84–R88, R93, R95, R96) -/

theorem offerStage_none (a : Action) (r : Record) (s : State) (h : a.ring = none) : offerStage a r s = s := by
  simp [offerStage, h]

theorem offerStage_some (a : Action) (r : Record) (s : State) (i : Fin 4) (h : a.ring = some i) :
    offerStage a r s = offer i r a.strip s := by simp [offerStage, h]

theorem verdictStage_plain (a : Action) (r : Record) (s : State) (h1 : r.kind ≠ .scanStart) (h2 : r.kind ≠ .driveStart) :
    verdictStage a r s = s := by
  unfold verdictStage
  split
  · rename_i e
    exact absurd e h1
  · rename_i e
    exact absurd e h2
  · rfl

theorem verdictStage_scan (a : Action) (r : Record) (s : State) (h : r.kind = .scanStart) :
    verdictStage a r s = scanVerdict a.refuse s := by simp [verdictStage, h]

theorem verdictStage_drive (a : Action) (r : Record) (s : State) (h : r.kind = .driveStart) :
    verdictStage a r s = driveVerdict a.refuse r.key s := by simp [verdictStage, h]

theorem alertStage_none (a : Action) (s : State) (h : a.alert = none) : alertStage a s = s := by simp [alertStage, h]

theorem alertStage_some (a : Action) (s : State) (n : Fin 4) (h : a.alert = some n) :
    alertStage a s = setAlert (.matchAlert n) s := by simp [alertStage, h]

theorem classStage_none (a : Action) (r : Record) (s : State) (h : a.cls = none) : classStage a r s = s := by
  simp [classStage, h]

theorem classStage_some (a : Action) (r : Record) (s : State) (e : Fin 16) (h : a.cls = some e) :
    classStage a r s = deliverClass e r.stamp s := by simp [classStage, h]

theorem onClassCommit_other (a : Action) (s : State) (h : ∀ e, a.cls = some e → s.cle.commit ≠ some (.onClass e)) :
    onClassCommit a s = s := by
  unfold onClassCommit
  split
  · rename_i e he
    exact if_neg (h e he)
  · rfl

theorem onClassCommit_swap (a : Action) (s : State) (e : Fin 16) (h : a.cls = some e)
    (hc : s.cle.commit = some (.onClass e)) : onClassCommit a s = swapBanks s := by simp [onClassCommit, h, hc]

theorem nextRecordCommit_swap (s : State) (h : s.cle.commit = some .nextRecord) : nextRecordCommit s = swapBanks s :=
  if_pos h

theorem nextRecordCommit_other (s : State) (h : s.cle.commit ≠ some .nextRecord) : nextRecordCommit s = s := if_neg h

/-- The classifier with an empty record queue does nothing. -/
theorem classifyNext_empty (s : State) (h : s.cle.queue = []) : classifyNext s = s := by simp [classifyNext, h]

end Sys2Proof.Machine
end

