-- ==== Sys2Proof/Laws/Serve.lean ====
section
/-! SUPPORT. What the serving of a request does: the handler runs on the oldest request of its code, or nothing changes. -/

namespace Sys2Proof.Machine

variable {code : Byte} {fits : List Byte → Bool} {handler : Request → State → State} {s : State}

/-- The row serves the oldest request. -/
theorem serveWhen_head {q : Request} {rest : List Request} (h : s.slu.ingress = q :: rest) (hc : q.ticket.code = code)
    (hf : fits q.payload = true) :
    serveWhen code fits handler s = handler q { s with slu := { s.slu with ingress := rest } } := by
  simp [serveWhen, h, hc, hf]

theorem serve_head {q : Request} {rest : List Request} (h : s.slu.ingress = q :: rest) (hc : q.ticket.code = code) :
    serve code handler s = handler q { s with slu := { s.slu with ingress := rest } } :=
  serveWhen_head h hc rfl

/-- The row of another code, or of another mode, changes nothing. -/
theorem serveWhen_other (h : ∀ q rest, s.slu.ingress = q :: rest → ¬(q.ticket.code = code ∧ fits q.payload = true)) :
    serveWhen code fits handler s = s := by
  unfold serveWhen
  split
  · rename_i q rest e
    rw [if_neg (h q rest e)]
  · rfl

theorem serve_other (h : ∀ q rest, s.slu.ingress = q :: rest → q.ticket.code ≠ code) : serve code handler s = s :=
  serveWhen_other fun q rest e hq => h q rest e hq.1

/-- The two things a request row can do. -/
theorem serveWhen_cases (code : Byte) (fits : List Byte → Bool) (handler : Request → State → State) (s : State) :
    serveWhen code fits handler s = s ∨
      ∃ q rest, s.slu.ingress = q :: rest ∧ q.ticket.code = code ∧ fits q.payload = true ∧
        serveWhen code fits handler s = handler q { s with slu := { s.slu with ingress := rest } } := by
  by_cases h : ∃ q rest, s.slu.ingress = q :: rest ∧ q.ticket.code = code ∧ fits q.payload = true
  · obtain ⟨q, rest, h, hc, hf⟩ := h
    exact .inr ⟨q, rest, h, hc, hf, serveWhen_head h hc hf⟩
  · exact .inl (serveWhen_other fun q rest e hq => h ⟨q, rest, e, hq.1, hq.2⟩)

/-- What the row's handler keeps on the state without the oldest request, the row keeps. -/
theorem serveWhen_keeps {P : State → Prop} (hs : P s)
    (h : ∀ q rest, s.slu.ingress = q :: rest → q.ticket.code = code → fits q.payload = true →
      P (handler q { s with slu := { s.slu with ingress := rest } })) : P (serveWhen code fits handler s) := by
  rcases serveWhen_cases code fits handler s with e | ⟨q, rest, hq, hc, hf, e⟩
  · rw [e]
    exact hs
  · rw [e]
    exact h q rest hq hc hf

/-- A part of the state that neither the ingress queue nor the handler touches, the row does not touch. -/
theorem serveWhen_same {γ : Type} (φ : State → γ) (hi : ∀ rest, φ { s with slu := { s.slu with ingress := rest } } = φ s)
    (h : ∀ q t, φ (handler q t) = φ t) : φ (serveWhen code fits handler s) = φ s :=
  serveWhen_keeps (P := fun t => φ t = φ s) rfl fun _ rest _ _ _ => (h _ _).trans (hi rest)

theorem modeFits_own (i own last : Nat) (p : List Byte) (h : byteAt p i = own) : modeFits i own last p = true := by
  simp [modeFits, h]

/-- A mode byte above the last is served, and answered RANGE, by any row of the code (log 22). -/
theorem modeFits_above (i own last : Nat) (p : List Byte) (h : last < byteAt p i) : modeFits i own last p = true := by
  simp [modeFits, h]

end Sys2Proof.Machine
end

