-- ==== Sys2Proof/WellFormed.lean ====
section
/-! DEFINITION. Which commands can be sent. Lanes, channels, segments, receivers and lines are in range by their types;
what is left to check is the frame. -/

namespace Sys2Proof

/-- The most payload bytes of an Ethernet frame: the bench header and the longest bench payload, 8 + 1492 (R189).
PRESUMED (log 33): a longer frame does not arrive from the PHY. -/
abbrev maxFramePayload : Nat := 1500

/-- A command the sender can send: a frame carries at most 1500 payload bytes, and no frame comes from the broadcast
address (PRESUMED, log 33). -/
def Instr.wellFormed : Instr → Bool
  | .frameArrival f => decide (f.payload.length ≤ maxFramePayload) && (f.src != 0xFFFFFFFFFFFF#48)
  | _ => true

end Sys2Proof
end

