-- ==== Sys2Proof/Tests/Slice0.lean ====
section
/-! SUPPORT. Tests: ill-formed commands, a witness for the hypotheses of each statement, and single steps. -/

namespace Sys2Proof.Tests

open Sys2Proof.Machine Sys2Proof.Claims

/-! ## Helpers -/

/-- The ticket of a test's request. -/
def tk (code : Byte) : Ticket := { id := 0, src := 0x0200000000AA, tag := 7, code }

def rq (code : Byte) (p : List Byte) : Request := { ticket := tk code, payload := p }

/-- A state with one accepted request, waiting in the ingress queue. -/
def ask (code : Byte) (p : List Byte) (s : State) : State :=
  { s with
    slu :=
      { s.slu with
        ingress := [rq code p], owed := [{ ticket := tk code, answered := false }], accepted := 1
        station := some 0x0200000000AA } }

/-- The state a command leads to. -/
def after (c : Instr) (s : State) : State :=
  match exec c s with
  | .next t => t
  | _ => s

/-- The statuses and payloads of the responses a command leads to. -/
def replies (c : Instr) (s : State) : List (Status × List Byte) :=
  (after c s).slu.responses.map fun r => (r.status, r.payload)

def withLane (i : Fin 16) (l : Lane) (s : State) : State :=
  { s with stu := { s.stu with lanes := put s.stu.lanes i l } }

def withDecoder (d : Decoder) (s : State) : State := { s with stu := { s.stu with decoder := d } }

def withChannel (c : Fin 8) (x : Channel) (s : State) : State := { s with rmu := s.rmu.setChannel c x }

def withLine (d : Fin 8) (l : Line) (s : State) : State := { s with dcu := { s.dcu with lines := put s.dcu.lines d l } }

def withHold (i : Fin 33) (h : Hold) (s : State) : State := { s with hold := put s.hold i h }

def withMode (m : DriveMode) (s : State) : State := { s with dcu := { s.dcu with mode := m } }

def withRun (r : RunState) (s : State) : State := { s with tsq := { s.tsq with run := r } }

def ready (s : State) : State := { s with cst := { s.cst with ready := true } }

/-- A lane in SENSE with reject width 1 µs. -/
def sense : Lane := { Lane.reset with mode := .sense, width := 1, edges := .both, glitches := true }

/-- A released line. -/
def idleLine : Line :=
  { state := .released, safeAsserted := false, mask := 0, interval := 0, lastRelease := none, guarded := none }

/-- A pair of lines 0 and 1 with gap 2 ms. -/
def paired (s : State) : State :=
  { s with dcu := { s.dcu with pairs := put s.dcu.pairs 0 (some { a := 0, b := 1, gap := 2 }) } }

/-- A DR-SCAN of 3 bits. -/
def drScan : Scan := { kind := .drScan, pause := false, length := 3, out := [true, false, true] }

def tapReset : Scan := { kind := .tapReset, pause := false, length := 0, out := [] }

/-- A running scan of the station. -/
def scanning : Running :=
  { scan := drScan, origin := .station (tk codeScanSubmit), tdo := [], abortTaken := false, stoppedShort := false
    plan := [{ tms := false, part := .entry, out := none }, { tms := false, part := .shift, out := some true }] }

def withScan (phase : ScanPhase) (r : Running) (s : State) : State :=
  { s with sce := { s.sce with phase := phase, running := some r, tracked := .idle } }

/-- A record with one body byte. -/
def rec (i : Fin 33) (k : Kind) : Record := { newRecord i k 5 0 with body := [1] }

/-- A request that is accepted and served is the head of the ingress queue. -/
theorem test_ask (code : Byte) (p : List Byte) (s : State) : headIs (ask code p s) (rq code p) [] code := ⟨rfl, rfl⟩

/-! ## Well-formedness -/

/-- A frame of 1501 payload bytes is refused by the check. -/
theorem test_long_frame_ill_formed :
    (Instr.frameArrival
      { dst := 0, src := 1, etherType := 0, payload := List.replicate 1501 0, checkGood := true }).wellFormed = false := by
  decide +kernel

/-- A frame from the broadcast address is refused by the check. -/
theorem test_broadcast_source_ill_formed :
    (Instr.frameArrival
      { dst := 0, src := 0xFFFFFFFFFFFF, etherType := 0, payload := [], checkGood := true }).wellFormed = false := by
  decide +kernel

/-! ## Witnesses: the machine and the time base -/

theorem test_meets_StepRunsTheFrontCommand :
    ({ State.reset with pending := [.tick, .stop] } : State).pending = .tick :: [.stop] := rfl

theorem test_meets_EmptyQueueTakesDueEventOrClock :
    State.reset.pending = [] ∧ dueEvents State.reset = [] ∧
      dueEvents { State.reset with tbu := { Tbu.reset with tickDue := true } } = [.tick] := by decide +kernel

theorem test_meets_RequestsAreServedInArrivalOrder :
    requestCode .timeTrim = some codeTimeTrim ∧ (rq codeStop []).ticket.code ≠ codeTimeTrim ∧
      (ask codeStop [] State.reset).slu.ingress = [rq codeStop []] := by decide +kernel

/-- The last clock of a frame of 3-clock periods at trim −15. -/
def frameEnd : Tbu := { Tbu.reset with period := 3, trim := -15, framePeriod := 16, frameClock := 3 }

/-- A check running at 254, 10 and 0 edges of the three clocks, and a departed bus line: nothing due. -/
def counted : State :=
  setBus 1 { Bus.reset with enabled := true, clockLine := { accepted := true, filter := .pending 40 6 } }
    { State.reset with
      pins := { State.reset.pins with brefEdges := 1, busClock := put State.reset.pins.busClock 1 false }
      stu :=
        { State.reset.stu with
          check := { running := some (tk codeClockCheck), core := 254, bref := 10, rclk := 0 } } }

theorem test_meets_CoreClockAdvancesTimeBaseAndCounters :
    State.reset.pending = [] ∧ dueEvents State.reset = [] ∧ tbuInFrame State.reset.tbu ∧ tbuInFrame frameEnd ∧
      frameEnd.frameClock = frameEnd.period ∧ dueEvents { State.reset with tbu := frameEnd } = [] ∧
      ({ Tbu.reset with base := 0xFFFFFFFFFFFF } : Tbu).trim = 0 ∧ Tbu.reset.divider = 1 ∧ Tbu.reset.tickDue = false ∧
      State.reset.stu.check.running = none ∧ counted.stu.check.running = some (tk codeClockCheck) ∧
      counted.pending = [] ∧ dueEvents counted = [] ∧ (counted.btu.buses[1].line .clock).filter = .pending 40 6 ∧
      (counted.btu.buses[1].line .data).filter = .steady ∧ State.reset.stu.lanes[15].filter = .steady ∧
      (withLane 15 { sense with filter := .pending 40 3 } State.reset).stu.lanes[15].filter = .pending 40 3 ∧
      State.reset.cst.ready = false ∧ (ready State.reset).cst.ready = true := by
  unfold tbuInFrame
  decide +kernel

theorem test_meets_TrimFrameAdvancesTimeBase :
    tbuInFrame frameEnd ∧ frameEnd.frameClock = frameEnd.period ∧ frameEnd.framePeriod = 16 ∧
      tbuInFrame { frameEnd with frameClock := 2 } ∧
      tbuInFrame { Tbu.reset with period := 65536, trim := 15 } ∧ Tbu.reset.framePeriod = 1 ∧ Tbu.reset.frameClock = 1 := by
  unfold tbuInFrame
  decide +kernel

theorem test_meets_TimeTrimStoresAndRestartsFrame :
    headIs (ask codeTimeTrim [0, 1, 0, 0, 128] State.reset) (rq codeTimeTrim [0, 1, 0, 0, 128]) [] codeTimeTrim ∧
      numAt (rq codeTimeTrim [0, 0, 0, 0, 0]).payload 0 4 = 0 ∧ numAt (rq codeTimeTrim [0, 1, 0, 1, 0]).payload 0 4 = 65537 ∧
      numAt (rq codeTimeTrim [0, 0, 0, 1, 15]).payload 0 4 = 1 ∧
      numAt (rq codeTimeTrim [0, 1, 0, 0, 128]).payload 0 4 = 65536 ∧
      signedByteAt (rq codeTimeTrim [0, 1, 0, 0, 128]).payload 4 = -128 ∧
      signedByteAt (rq codeTimeTrim [0, 0, 0, 1, 16]).payload 4 = 16 := by
  refine ⟨⟨rfl, rfl⟩, ?_⟩
  decide +kernel

/-- A time set armed on lane 15, in SENSE. -/
def armedSet : State :=
  let s := withLane 15 { sense with filter := .pending 40 125 } State.reset
  { s with tbu := { s.tbu with armed := some { lane := 15, value := 1000, ticket := tk codeTimeSet } } }

theorem test_meets_TimeSetRequestsAndArmedApplication :
    headIs (ask codeTimeSet [1, 15, 0, 0, 0, 0, 0, 9] armedSet) (rq codeTimeSet [1, 15, 0, 0, 0, 0, 0, 9]) [] codeTimeSet ∧
      byteAt [0, 0] 0 = 0 ∧ byteAt [1, 16] 1 = 16 ∧ byteAt [1, 15] 1 = (15 : Fin 16).val ∧
      State.reset.stu.lanes[15].mode = .off ∧ armedSet.stu.lanes[15].mode = .sense ∧ State.reset.tbu.armed = none ∧
      armedSet.tbu.armed = some { lane := 15, value := 1000, ticket := tk codeTimeSet } ∧ byteAt [2] 0 = 2 ∧
      3 ≤ byteAt [3] 0 ∧ 3 ≤ byteAt [255] 0 ∧ (0 : Fin 16) ≠ 15 ∧ armedSet.stu.lanes[15].filter = .pending 40 125 ∧
      armedSet.stu.lanes[15].rejectClocks ≤ 125 ∧ armedSet.stu.lanes[15].accepted = false := by
  refine ⟨⟨rfl, rfl⟩, ?_⟩
  decide +kernel

/-! ## Witnesses: lanes, decoder, clock check -/

theorem test_meets_DeparturesBecomeGlitchesOrComeDue :
    sense.mode = .sense ∧ sense.width ≠ 0 ∧ sense.filter = .steady ∧
      (if sense.polarity = .activeHigh then true else !true) ≠ sense.accepted ∧
      ({ sense with filter := .pending 40 124 } : Lane).filter = .pending 40 124 ∧
      124 < ({ sense with filter := .pending 40 124 } : Lane).rejectClocks ∧
      ({ sense with width := 4, polarity := .activeLow } : Lane).rejectClocks = 64000 ∧
      (if sense.polarity = .activeHigh then false else !false) = sense.accepted ∧
      (withLane 0 sense State.reset).stu.lanes[0] = sense := by decide +kernel

theorem test_meets_AcceptedLaneChange :
    (withLane 15 { sense with filter := .pending 40 125 } State.reset).stu.lanes[15] =
        { sense with filter := .pending 40 125 } ∧
      ({ sense with filter := .pending 40 125 } : Lane).rejectClocks ≤ 125 ∧
      ({ sense with width := 0 } : Lane).width = 0 ∧ true ≠ ({ sense with width := 0 } : Lane).accepted ∧
      State.reset.stu.decoder.enabled = false ∧ State.reset.sce.powerLane ≠ some 15 ∧ State.reset.tbu.armed = none ∧
      (acceptedChange 15 true 40 true armedSet).tbu.armed = none := by decide +kernel

theorem test_meets_LaneConfigTreatsTheFilter :
    headIs (ask codeLaneConfig [15, 0, 0, 4, 255, 1] armedSet) (rq codeLaneConfig [15, 0, 0, 4, 255, 1]) [] codeLaneConfig ∧
      16 ≤ byteAt [16, 1, 0, 0, 255, 0] 0 ∧ 5 ≤ byteAt [0, 1, 0, 5, 255, 0] 3 ∧
      laneSettingsAt [0, 2, 0, 0, 255, 0] = none ∧
      laneSettingsAt [15, 0, 0, 4, 255, 1] =
        some (15, { mode := .off, polarity := .activeHigh, width := 4, edges := .none, glitches := false }) ∧
      armedSet.stu.lanes[15].mode = .sense ∧ armedSet.tbu.armed.map (·.lane) = some 15 ∧
      laneSettingsAt [0, 1, 1, 0, 3, 0] =
        some (0, { mode := .sense, polarity := .activeLow, width := 0, edges := .both, glitches := true }) ∧
      armedSet.stu.lanes[0].mode = .off := by
  refine ⟨⟨rfl, rfl⟩, ?_⟩
  decide +kernel

theorem test_meets_GlitchClearZeroesNamedLanes :
    headIs (ask codeGlitchClear [128, 0] State.reset) (rq codeGlitchClear [128, 0]) [] codeGlitchClear ∧
      (numAt [128, 0] 0 2).testBit (15 : Fin 16).val = true ∧
      124 < ({ sense with filter := .pending 40 124 } : Lane).rejectClocks ∧
      logicalLevel sense.polarity false = sense.accepted ∧ sense.glitches = true := by
  refine ⟨⟨rfl, rfl⟩, ?_⟩
  decide +kernel

/-- Lanes 0, 1 and 15 in SENSE, the decoder enabled on them. -/
def decoding : State :=
  withDecoder { Decoder.reset with a := 0, b := 1, c := 15, settle := 1, enabled := true, current := some .illegal }
    (withLane 15 { sense with accepted := true } (withLane 1 sense (withLane 0 sense State.reset)))

theorem test_meets_DecodeConfigEnablesAndDisables :
    headIs (ask codeDecodeConfig [0, 1, 15, 3, 255, 0] decoding) (rq codeDecodeConfig [0, 1, 15, 3, 255, 0]) []
        codeDecodeConfig ∧
      numAt [0, 1, 15, 3, 255, 0] 3 2 = 1023 ∧ numAt [0, 1, 15, 4, 0, 0] 3 2 = 1024 ∧ 16 ≤ byteAt [16, 1, 15] 0 ∧
      2 ≤ byteAt [0, 1, 15, 0, 0, 2] 5 ∧ decoding.stu.decoder.enabled = true ∧
      State.reset.stu.decoder.enabled = false ∧ State.reset.stu.lanes[0].mode = .off ∧
      decoding.stu.lanes[0].mode = .sense ∧ decoding.stu.lanes[1].mode = .sense ∧ decoding.stu.lanes[15].mode = .sense ∧
      (4 : Fin 8).val =
        4 * bit decoding.stu.lanes[15].accepted + 2 * bit decoding.stu.lanes[1].accepted +
          bit decoding.stu.lanes[0].accepted := by
  refine ⟨⟨rfl, rfl⟩, ?_⟩
  decide +kernel

/-- A decode table payload: every code ILLEGAL with every state allowed. -/
def tablePayload : List Byte := (List.replicate 8 [4, 31]).flatten

theorem test_meets_DecodeLoadReplacesTheTable :
    headIs (ask codeDecodeLoad tablePayload State.reset) (rq codeDecodeLoad tablePayload) [] codeDecodeLoad ∧
      (∀ k < 8, byteAt tablePayload (2 * k) ≤ 4 ∧ byteAt tablePayload (2 * k + 1) ≤ 31) ∧
      5 ≤ byteAt (5 :: tablePayload.tail) (2 * 0) ∧ State.reset.stu.decoder.enabled = false ∧
      decoding.stu.decoder.enabled = true ∧
      ({ decoding.stu.decoder with episode := some { stamp := 3, count := 0 } } : Decoder).episode.isSome = true := by
  refine ⟨⟨rfl, rfl⟩, ?_⟩
  decide +kernel

/-- An episode of 1 µs run out, in a table where code 4 is RUN. -/
def expired (allowed : BitVec 5) (current : PlatformState) : State :=
  withDecoder
    { decoding.stu.decoder with
      episode := some { stamp := 3, count := 125 }, current := some current
      table := put decoding.stu.decoder.table 4 { state := .run, allowed } }
    decoding

theorem test_meets_SettleEpisodeDecodesAtExpiry :
    decoding.stu.decoder.enabled = true ∧ (15 : Fin 16) = decoding.stu.decoder.c ∧ 1 ≤ decoding.stu.decoder.settle ∧
      State.reset.stu.decoder.enabled = false ∧
      ((2 : Fin 16) ≠ decoding.stu.decoder.a ∧ (2 : Fin 16) ≠ decoding.stu.decoder.b ∧ (2 : Fin 16) ≠ decoding.stu.decoder.c) ∧
      (withDecoder { decoding.stu.decoder with settle := 0 } decoding).stu.decoder.enabled = true ∧
      (withDecoder { decoding.stu.decoder with settle := 0 } decoding).stu.decoder.settle = 0 ∧
      (expired 0 .suspend).stu.decoder.episode = some { stamp := 3, count := 125 } ∧
      125 * (expired 0 .suspend).stu.decoder.settle ≤ 125 ∧ (expired 0 .suspend).code = 4 ∧
      (expired 0 .suspend).stu.decoder.table[(4 : Fin 8)].state = .run ∧
      (expired 0 .run).stu.decoder.current = some .run ∧
      (expired 0 .suspend).stu.decoder.table[(4 : Fin 8)].allowed.getLsbD PlatformState.suspend.num = false ∧
      (expired 2 .suspend).stu.decoder.table[(4 : Fin 8)].allowed.getLsbD PlatformState.suspend.num = true := by
  decide +kernel

/-- A clock presence check running, BREF's count at 255. -/
def checking : State :=
  { State.reset with
    stu :=
      { State.reset.stu with check := { running := some (tk codeClockCheck), core := 200, bref := 255, rclk := 3 } } }

theorem test_meets_ClockCheckRunsAndEnds :
    headIs (ask codeClockCheck [] checking) (rq codeClockCheck []) [] codeClockCheck ∧
      State.reset.stu.check.running = none ∧ checking.stu.check.running = some (tk codeClockCheck) ∧
      checking.stu.check.bref = 255 ∧ counted.stu.check.running = some (tk codeClockCheck) ∧
      ¬(counted.stu.check.core = 255 ∨ counted.stu.check.bref = 255 ∨ counted.stu.check.rclk = 255) ∧
      counted.stu.check.core + 1 ≤ 255 ∧
      (∀ j < 1, counted.stu.check.bref + j * counted.pins.brefEdges.toNat < 255 ∧
        counted.stu.check.rclk + j * counted.pins.rclkEdges.toNat < 255) := by
  refine ⟨⟨rfl, rfl⟩, ?_⟩
  decide +kernel

/-! ## Witnesses: rails -/

/-- Channel 7 converting, its conversion over, with protect on and a trip level of 1000 mV. -/
def tripping : State :=
  let s := withChannel 7 { Channel.reset with enabled := true, protect := true, trip := 1000 } State.reset
  { s with rmu := { s.rmu with converting := some { channel := 7, elapsed := 250 }, position := 7 } }

/-- Channel 3 blanked with its hold run out, its window moved from INSIDE to ABOVE. -/
def blankOver : State :=
  withChannel 3 { Channel.reset with blanked := true, blankLatch := .inside, window := .above } State.reset

theorem test_meets_ConversionEndAndBlankEnd :
    tripping.rmu.converting = some { channel := 7, elapsed := 250 } ∧
      (∀ c : Fin 8, State.reset.rmu.channels[c].enabled = false) ∧
      (7 : Fin 8).val = (tripping.rmu.position.val + 1 + 7) % 8 ∧ tripping.rmu.channels[7].enabled = true ∧
      (∀ j < 7, ∀ d : Fin 8, d.val = (tripping.rmu.position.val + 1 + j) % 8 →
        tripping.rmu.channels[d].enabled = false) ∧
      tripping.rmu.channels[7].protect = true ∧ tripping.rmu.channels[7].trip = 1000 ∧
      tripping.rmu.channels[7].tripped = false ∧ State.reset.rmu.channels[7].trip = 0 ∧
      State.reset.rmu.channels[7].decim = 0 ∧ ({ Channel.reset with decim := 256, samples := 254 } : Channel).samples + 1 < 256 ∧
      ({ Channel.reset with decim := 256, samples := 255 } : Channel).decim ≤
        ({ Channel.reset with decim := 256, samples := 255 } : Channel).samples + 1 ∧
      blankOver.rmu.channels[3].blanked = true ∧ blankOver.rmu.channels[3].blankHold = 0 ∧
      (∀ d : Fin 8, ¬(blankOver.rmu.lines[d].active = true ∧ blankOver.rmu.lines[d].mask.getLsbD (3 : Fin 8).val = true)) := by
  decide +kernel

theorem test_meets_WindowMovesWithHysteresis :
    State.reset.rmu.channels[0].window = .unknown ∧ blankOver.rmu.channels[3].window ≠ .unknown := by decide +kernel

theorem test_meets_LineNoticesAndSafeEntry :
    tripping.dcu.safeHeld ∧ tripping.rmu.converting = some { channel := 7, elapsed := 250 } ∧
      tripping.rmu.channels[7].protect = true ∧ tripping.rmu.channels[7].tripped = false ∧
      1 ≤ tripping.rmu.channels[7].trip ∧
      tripping.rmu.channels[7].trip ≤ min 65535 ((1000#12).toNat * tripping.rmu.channels[7].gain / 1024) ∧
      State.reset.dcu.lines[7].state.active = LineState.active .released ∧ LineState.active .asserted = true ∧
      (withLine 7 { idleLine with state := .pressing 5 99 } State.reset).dcu.lines[7].state.active = true ∧
      State.reset.dcu.lines[7].safeAsserted = false ∧
      (withLine 7 { idleLine with safeAsserted := true } State.reset).dcu.lines[7].safeAsserted = true ∧
      (withLine 7 { idleLine with state := .deferred { ticket := none, action := .assert, width := 0 } 9 }
          State.reset).dcu.lines[7].state = .deferred { ticket := none, action := .assert, width := 0 } 9 ∧
      (withMode .safe State.reset).dcu.mode = .safe ∧ State.reset.dcu.mode ≠ .safe := by
  unfold Dcu.safeHeld
  decide +kernel

theorem test_meets_RailConfigStartsAfresh :
    headIs (ask codeRailConfig [7, 0, 4, 0, 0, 9, 0, 9, 0, 0, 0, 0, 1, 1, 0] State.reset)
        (rq codeRailConfig [7, 0, 4, 0, 0, 9, 0, 9, 0, 0, 0, 0, 1, 1, 0]) [] codeRailConfig ∧
      byteAt [7, 0, 4, 0, 0, 9, 0, 9, 0, 0, 0, 0, 1, 1, 0] 0 = (7 : Fin 8).val ∧
      1 ≤ numAt [7, 0, 4, 0, 0, 9, 0, 9, 0, 0, 0, 0, 1, 1, 0] 2 2 ∧
      numAt [7, 0, 4, 0, 0, 9, 0, 9, 0, 0, 0, 0, 1, 1, 0] 4 2 ≤ numAt [7, 0, 4, 0, 0, 9, 0, 9, 0, 0, 0, 0, 1, 1, 0] 6 2 ∧
      numAt [7, 0, 4, 0, 0, 9, 0, 9, 0, 0, 0, 0, 1, 1, 0] 13 2 = 256 ∧ 8 ≤ byteAt [8] 0 ∧ numAt [0, 0, 0, 0] 2 2 = 0 ∧
      numAt [0, 0, 4, 0, 0, 9, 0, 8] 6 2 < numAt [0, 0, 4, 0, 0, 9, 0, 8] 4 2 ∧
      256 < numAt [0, 0, 4, 0, 0, 9, 0, 9, 0, 0, 0, 0, 1, 1, 1] 13 2 := by
  refine ⟨⟨rfl, rfl⟩, ?_⟩
  decide +kernel

theorem test_meets_TripClearEmptiesNamedLatches :
    headIs (ask codeTripClear [128] tripping) (rq codeTripClear [128]) [] codeTripClear ∧
      (byteAt [128] 0).testBit (7 : Fin 8).val = true ∧ 1 ≤ tripping.rmu.channels[7].trip ∧
      tripping.rmu.channels[7].trip ≤ ({ code := 1000, value := 1000, saturated := false } : Conversion).value ∧
      (withChannel 7 { Channel.reset with trip := 1000, tripped := true } State.reset).rmu.channels[7].tripped = true := by
  refine ⟨⟨rfl, rfl⟩, ?_⟩
  decide +kernel

/-! ## Witnesses: buses and consoles -/

/-- Bus 1 enabled with filter width 1, the lines as given. -/
def busOn (f : Bus → Bus) : State := setBus 1 (f { Bus.reset with enabled := true }) State.reset

theorem test_meets_BusLineFilter :
    State.reset.btu.buses[0].enabled = false ∧ (busOn id).btu.buses[1].enabled = true ∧
      (busOn fun b => { b with width := 0 }).btu.buses[1].width = 0 ∧ (busOn id).btu.buses[1].width ≠ 0 ∧
      ((busOn id).btu.buses[1].line .data).filter = .steady ∧ false ≠ ((busOn id).btu.buses[1].line .data).accepted ∧
      6 < (busOn id).btu.buses[1].filterClocks ∧
      (busOn fun b => { b with clockLine := { accepted := false, filter := .steady }
                               dataLine := { accepted := true, filter := .pending 40 7 } }).btu.buses[1].filterClocks ≤ 7 ∧
      (busOn fun b => { b with clockLine := { accepted := false, filter := .steady } }).btu.buses[1].clockLine.accepted =
        false ∧
      (busOn fun b => { b with width := 0 }).btu.buses[1].dataLine.filter = .steady ∧
      false ≠ (busOn fun b => { b with width := 0 }).btu.buses[1].dataLine.accepted ∧
      true = ((busOn id).btu.buses[1].line .data).accepted ∧
      ((busOn fun b => { b with clockLine := { accepted := true, filter := .pending 40 6 } }).btu.buses[1].line .clock).filter =
        .pending 40 6 ∧
      ((setBusPin 1 .clock false (busOn fun b => { b with width := 0 })).busChangeDue 1 .clock).isSome = true := by
  decide +kernel

/-- A bus whose data line has departed for 7 clocks while its clock line is high. -/
def dataMoves (level : Bool) : State :=
  busOn fun b => { b with dataLine := { accepted := level, filter := .pending 40 7 } }

theorem test_meets_BusStartAndStop :
    (dataMoves true).busChangeDue 1 .data = some 40 ∧ (dataMoves true).btu.buses[1].clockLine.accepted = true ∧
      (dataMoves true).btu.buses[1].dataLine.accepted = true ∧ (dataMoves false).busChangeDue 1 .data = some 40 ∧
      (dataMoves false).btu.buses[1].dataLine.accepted = false ∧
      ({ Bus.reset with phase := .ignore } : Bus).phase = .ignore ∧
      ({ Bus.reset with phase := .data } : Bus).bitCount = 0 ∧
      1 ≤ ({ Bus.reset with phase := .data, bitCount := 1 } : Bus).bitCount := by decide +kernel

/-- A bus whose clock line has departed for 7 clocks. -/
def clockMoves (level : Bool) (f : Bus → Bus) : State :=
  busOn fun b => f { b with clockLine := { accepted := level, filter := .pending 40 7 } }

theorem test_meets_BusBitsBytesAndStuckClock :
    (clockMoves false id).busChangeDue 1 .clock = some 40 ∧ (clockMoves false id).btu.buses[1].stuck = false ∧
      (clockMoves false id).btu.buses[1].clockLine.accepted = false ∧
      (clockMoves true id).busChangeDue 1 .clock = some 40 ∧ (clockMoves true id).btu.buses[1].highClean = false ∧
      (clockMoves true fun b => { b with highClean := true, phase := .address, bitCount := 7 }).btu.buses[1].bitCount < 8 ∧
      8 ≤ (clockMoves true fun b => { b with highClean := true, phase := .data, bitCount := 8 }).btu.buses[1].bitCount ∧
      (clockMoves false fun b => { b with stuck := true }).busChangeDue 1 .clock = some 40 ∧
      125000 * (clockMoves false fun b => { b with stuckTimer := 3125000 }).btu.buses[1].timeout ≤
        (clockMoves false fun b => { b with stuckTimer := 3125000 }).btu.buses[1].stuckTimer := by decide +kernel

theorem test_meets_BusAndConsoleConfigRestart :
    headIs (ask codeBusConfig [1, 0, 3, 1] State.reset) (rq codeBusConfig [1, 0, 3, 1]) [] codeBusConfig ∧
      headIs (ask codeConsoleConfig [1, 0, 0, 1, 0] State.reset) (rq codeConsoleConfig [1, 0, 0, 1, 0]) [] codeConsoleConfig ∧
      byteAt [1, 0, 3, 1] 0 = (1 : Fin 2).val ∧ byteAt [1, 0, 3, 1] 2 = (3 : Fin 4).val ∧ 1 ≤ byteAt [1, 0, 3, 1] 3 ∧
      2 ≤ byteAt [2, 0, 3, 1] 0 ∧ 4 ≤ byteAt [1, 0, 4, 1] 2 ∧ byteAt [1, 0, 3, 0] 3 = 0 ∧
      1 ≤ numAt [1, 0, 0, 1, 0] 2 2 ∧ numAt [1, 0, 0, 0, 0] 2 2 = 0 := by
  refine ⟨⟨rfl, rfl⟩, ⟨rfl, rfl⟩, ?_⟩
  decide +kernel

/-- Console 1 with a sample tick due. -/
def sampling (f : Console → Console) : State :=
  setConsole 1 (f { Console.reset with enabled := true, tickDue := true }) State.reset

theorem test_meets_ConsoleTicksReceiveAFrame :
    (sampling id).btu.consoles[1].enabled = true ∧ (sampling id).btu.consoles[1].tickDue = true ∧
      (sampling id).btu.consoles[1].rx = .waitHigh ∧
      (sampling fun c => { c with rx := .confirm, ticks := 6 }).btu.consoles[1].ticks + 1 < 8 ∧
      (sampling fun c => { c with rx := .confirm, ticks := 7 }).btu.consoles[1].ticks + 1 = 8 ∧
      (sampling fun c => { c with rx := .data, ticks := 23 }).btu.consoles[1].ticks + 1 = 8 + 16 * (0 + 1) ∧
      (sampling fun c => { c with rx := .stop, ticks := 151, bits := List.replicate 8 false }).btu.consoles[1].ticks + 1 =
        152 ∧
      bitsToNat (List.replicate 8 false) % 256 = 0 ∧
      (sampling fun c => { c with rx := .breakCheck, ticks := 158 }).btu.consoles[1].ticks + 1 < 160 ∧
      ({ Console.reset with rx := .confirm } : Console).rx = .confirm ∧
      ({ Console.reset with rx := .confirm } : Console).ticks = 0 ∧
      ({ Console.reset with rx := .confirm } : Console).bits = [] := by decide +kernel

theorem test_meets_ConsoleBytesBreaksAndIdleClose :
    (sampling fun c => { c with rx := .stop, ticks := 151, bits := [true] }).btu.consoles[1].data ≠ 0 ∧
      (sampling fun c => { c with rx := .stop, ticks := 151 }).btu.consoles[1].ticks + 1 = 152 ∧
      (sampling fun c => { c with rx := .breakCheck, ticks := 159 }).btu.consoles[1].ticks + 1 = 160 ∧
      (sampling fun c => { c with openRecord := some { stamp := 3, bytes := [65], framing := false }
                                  idleTimer := some 125000 }).btu.consoles[1].idleTimer = some 125000 ∧
      12500 * (sampling id).btu.consoles[1].idleClose ≤ 125000 := by decide +kernel

/-! ## Witnesses: records and the Match Table -/

/-- A source whose FIFO holds n records. -/
def holding (i : Fin 33) (n lost : Nat) (s : State) : State :=
  withHold i { fifo := List.replicate n (rec i .edgeRise), lost := lost, waiting := [] } s

theorem test_meets_RecordsAreHeldAndAdmitted :
    (holding 30 3 0 State.reset).hold[(rec 30 .scanStart).source].fifo.length < 4 ∧
      4 ≤ (holding 30 4 255 State.reset).hold[(rec 30 .scanStart).source].fifo.length ∧
      (rec 30 .scanStart).kind = .scanStart ∧ (rec 30 .scanDone).kind ≠ .scanStart ∧
      (rec 30 .scanDone).kind ≠ .driveStart ∧
      (32 : Fin 33).val = (State.reset.cle.position.val + 1 + 32) % 33 ∧
      (holding 32 1 0 State.reset).hold[32].fifo = [rec 32 .edgeRise] ∧
      (∀ j < 32, ∀ d : Fin 33, d.val = (State.reset.cle.position.val + 1 + j) % 33 →
        (holding 32 1 0 State.reset).hold[d].fifo = []) ∧
      State.reset.cle.queue.length < 64 ∧ 64 ≤ (List.replicate 64 (rec 0 .edgeRise)).length := by decide +kernel

/-- An entry for every record of source 30, with this action. -/
def matchAll (a : Action) : MatchEntry :=
  { valid := true, sourceLow := 30, sourceHigh := 30, kind := none, keyValue := 0, keyMask := 0, action := a }

/-- A record of source 30 in the record queue, entry 63 of ACTIVE matching it. -/
def classifying : State :=
  { State.reset with
    cle :=
      { State.reset.cle with
        queue := [rec 30 .scanDone]
        active := State.reset.cle.active.setEntry 63 (matchAll { Action.reset with cls := some 3 }) } }

theorem test_meets_ClassificationFollowsTheDecidingEntry :
    classifying.cle.queue = [rec 30 .scanDone] ∧ classifying.cle.commit ≠ some .nextRecord ∧
      (classifying.cle.active.entries[(63 : Fin 64)]).accepts (rec 30 .scanDone) = true ∧
      (∀ j < (63 : Fin 64), (classifying.cle.active.entries[j]).valid = false) ∧
      (∀ j : Fin 64, (State.reset.cle.active.entries[j]).valid = false) ∧ Action.reset.ring = none ∧
      Action.reset.alert = none ∧ Action.reset.cls = none ∧
      ({ ring := some 3, cls := some 15, alert := some 3, refuse := true, strip := true } : Action).cls = some 15 ∧
      (rec 30 .scanStart).kind = .scanStart ∧ (rec 31 .driveStart).kind = .driveStart ∧
      ((driveKey 7 .safe .none 0).extractLsb' 27 2 = 3) ∧ ((driveKey 7 .press .none 1).extractLsb' 27 2 ≠ 3) := by
  decide +kernel

/-- An ENTRY WRITE of entry 63 with the widest fields. -/
def entryPayload : List Byte := [63, 1, 0, 32, 28, 3, 15, 3, 1, 1, 0, 0, 0, 1, 0, 0, 0, 255]

theorem test_meets_TableWrites :
    headIs (ask codeEntryWrite entryPayload State.reset) (rq codeEntryWrite entryPayload) [] codeEntryWrite ∧
      headIs (ask codeDefaultWriteDirect [3, 15, 3, 0, 0] State.reset) (rq codeDefaultWriteDirect [3, 15, 3, 0, 0]) []
        codeDefaultWriteDirect ∧
      (entryAt entryPayload).map (·.1) = some 63 ∧
      actionAt [3, 15, 3, 0, 0] 0 = some { ring := some 3, cls := some 15, alert := some 3, refuse := false, strip := false } ∧
      64 ≤ byteAt [64] 0 ∧ byteAt [0, 1, 5, 4] 3 < byteAt [0, 1, 5, 4] 2 ∧ (29 ≤ byteAt [0, 1, 0, 0, 29] 4 ∧ byteAt [0, 1, 0, 0, 29] 4 ≠ 255) ∧
      actionAt [4, 0, 0, 0, 0] 0 = none ∧ State.reset.cle.commit = none ∧ State.reset.tsq.run = .idle ∧
      (withRun .armed State.reset).tsq.run ≠ .idle := by
  refine ⟨⟨rfl, rfl⟩, ⟨rfl, rfl⟩, ?_⟩
  decide +kernel

/-- A state with this commit pending. -/
def committing (c : CommitPoint) : State := { State.reset with cle := { State.reset.cle with commit := some c } }

theorem test_meets_CommitCancelAndSwap :
    headIs (ask codeCommit [2, 15] State.reset) (rq codeCommit [2, 15]) [] codeCommit ∧
      headIs (ask codeCommitCancel [] (committing .nextArm)) (rq codeCommitCancel []) [] codeCommitCancel ∧
      byteAt [2, 15] 0 = 2 ∧ byteAt [2, 15] 1 = (15 : Fin 16).val ∧ 16 ≤ byteAt [2, 16] 1 ∧ 3 ≤ byteAt [3, 0] 0 ∧
      State.reset.cle.commit = none ∧ (committing .nextArm).cle.commit ≠ none ∧ State.reset.cle.queue = [] := by
  refine ⟨⟨rfl, rfl⟩, ⟨rfl, rfl⟩, ?_⟩
  decide +kernel

theorem test_meets_HitsReadAndClear :
    headIs (ask codeHitsRead [] State.reset) (rq codeHitsRead []) [] codeHitsRead ∧
      headIs (ask codeHitsClear [] State.reset) (rq codeHitsClear []) [] codeHitsClear ∧
      ({ Cle.reset with hits := Vector.replicate 65 (2 ^ 32 - 1) } : Cle).hits[hitPlace (some 63)] = 2 ^ 32 - 1 := by
  refine ⟨⟨rfl, rfl⟩, ⟨rfl, rfl⟩, ?_⟩
  decide +kernel

/-! ## Witnesses: the sequencer -/

theorem test_meets_ArmStopAndTriggerNow :
    headIs (ask codeArm [] State.reset) (rq codeArm []) [] codeArm ∧
      headIs (ask codeStop [] (withRun .triggered State.reset)) (rq codeStop []) [] codeStop ∧
      headIs (ask codeTriggerNow [] (withRun .armed State.reset)) (rq codeTriggerNow []) [] codeTriggerNow ∧
      State.reset.tsq.run = .idle ∧ (withRun .armed State.reset).tsq.run = .armed ∧
      (withRun .done State.reset).tsq.run = .done ∧ (withRun .triggered State.reset).tsq.run ≠ .armed := by
  refine ⟨⟨rfl, rfl⟩, ⟨rfl, rfl⟩, ⟨rfl, rfl⟩, ?_⟩
  decide +kernel

/-- Ring 3 as given, the memory ready. -/
def withRing (r : Ring) (s : State) : State := ready (setRing 3 r s)

/-- A window ring of one block, with this state and post count. -/
def windowRing (st : RingState) (post : Nat) : Ring :=
  { Ring.reset with mode := .window, base := 8191, size := 1, post := post, state := st }

theorem test_meets_TriggerSequence :
    (withRing (windowRing .running 0) State.reset).cst.rings[3].mode = .window ∧
      (withRing (windowRing .running 0) State.reset).cst.rings[3].state = .running ∧
      (∀ i : Fin 4, (withRing (windowRing .running 0) State.reset).cst.rings[i].mode = .window →
        (withRing (windowRing .running 0) State.reset).cst.rings[i].state = .running →
        (withRing (windowRing .running 0) State.reset).cst.rings[i].post = 0) ∧
      (withRing (windowRing .running 1) State.reset).cst.rings[3].post ≠ 0 ∧ (windowRing .running 0).sound ∧
      (windowRing .running 0).placed := by
  refine ⟨rfl, rfl, ?_, ?_, ?_, by simp [Ring.placed, windowRing, Ring.reset]⟩
  · decide +kernel
  · decide +kernel
  · unfold Ring.sound
    decide +kernel

/-- Counter 3 running on this source, one short of its compare. -/
def counting (src : CounterSource) : State :=
  let s := withRun .armed State.reset
  { s with
    tbu := { s.tbu with tickDue := true }
    tsq := s.tsq.setCounter 3 { Counter.reset with source := src, running := true, count := 4, compare := 5 } }

theorem test_meets_ClassesAndTicksCountAndMatch :
    (∀ c : Fin 4, ((counting .tick).tsq.setCounter 3
        { Counter.reset with source := .tick, running := true, count := 5, compare := 5 }).counters[c] =
      if (counting .tick).tsq.counters[c].running = true ∧ (counting .tick).tsq.counters[c].source = .tick then
        { (counting .tick).tsq.counters[c] with count := (counting .tick).tsq.counters[c].count + 1 }
      else (counting .tick).tsq.counters[c]) ∧
      (counting .tick).tbu.tickDue = true ∧ (counting .tick).tsq.run = .armed ∧
      (counting (.cls 15)).tsq.counters[3].source = .cls 15 := by decide +kernel

/-- Level 0 with branch A on class 3 if enabled, and branch B on the same class. -/
def branching (a : Bool) : State :=
  { withRun .armed State.reset with
    tsq :=
      { (withRun .armed State.reset).tsq with
        levels := put State.reset.tsq.levels 0
          { a := { enabled := a, cls := 3, next := .trigger, actions := [.seqAlert] }
            b := { enabled := true, cls := 3, next := .level 7, actions := [.startCounter 3, .enterSafe] } } } }

theorem test_meets_BranchesAreTakenInOrder :
    (branching true).tsq.levels[(branching true).tsq.level].a.enabled = true ∧
      (branching true).tsq.levels[(branching true).tsq.level].a.cls = 3 ∧
      (branching false).tsq.levels[(branching false).tsq.level].a.enabled = false ∧
      (branching false).tsq.levels[(branching false).tsq.level].b.enabled = true ∧
      (branching false).tsq.levels[(branching false).tsq.level].b.cls = 3 ∧
      State.reset.tsq.levels[State.reset.tsq.level].a.enabled = false ∧
      State.reset.tsq.levels[State.reset.tsq.level].b.enabled = false ∧
      (branching true).tsq.levels[(branching true).tsq.level].a.next = .trigger ∧
      (branching false).tsq.levels[(branching false).tsq.level].b.next = .level 7 ∧ Branch.reset.next = .stay := by
  decide +kernel

/-- A LEVEL WRITE of level 7: branch A enabled on class 19, TRIGGER, two actions; branch B disabled. -/
def levelPayload : List Byte := [7, 1, 19, 9, 2, 4, 7, 0, 10, 6, 0, 0, 0] ++ [0, 0, 8, 0, 0, 0, 0, 0, 0, 0, 0, 0]

theorem test_meets_SequencerSettings :
    headIs (ask codeLevelWrite levelPayload State.reset) (rq codeLevelWrite levelPayload) [] codeLevelWrite ∧
      headIs (ask codeCounterConfig [3, 16, 1, 1] State.reset) (rq codeCounterConfig [3, 16, 1, 1]) [] codeCounterConfig ∧
      headIs (ask codeCompareWrite [3, 0, 0, 0, 1] State.reset) (rq codeCompareWrite [3, 0, 0, 0, 1]) [] codeCompareWrite ∧
      levelAt levelPayload =
        some (7,
          { a := { enabled := true, cls := 19, next := .trigger, actions := [.pressLine 7 10, .seqAlert] }
            b := Branch.reset }) ∧
      8 ≤ byteAt [8] 0 ∧ 20 ≤ byteAt [0, 0, 20] 2 ∧ 10 ≤ byteAt [0, 0, 0, 10] 3 ∧ 3 ≤ byteAt [0, 0, 0, 0, 3] 4 ∧
      byteAt [3, 16, 1, 1] 1 = 16 ∧ byteAt [3, 15, 0, 0] 1 = (15 : Fin 16).val ∧ 17 ≤ byteAt [3, 17] 1 ∧
      BitVec.ofNat 32 (numAt [3, 0, 0, 0, 1] 1 4) ≠ 0 ∧ BitVec.ofNat 32 (numAt [3, 0, 0, 0, 0] 1 4) = 0 ∧
      State.reset.tsq.run = .idle ∧ (withRun .triggered State.reset).tsq.run = .triggered := by
  refine ⟨⟨rfl, rfl⟩, ⟨rfl, rfl⟩, ⟨rfl, rfl⟩, ?_⟩
  decide +kernel

/-! ## Witnesses: rings -/

/-- RING CONFIG of ring 0 as WINDOW: this base and size, the greatest post count and priority. -/
def ringPayload (hi lo n : Byte) : List Byte := [0, 1, hi, lo, 0, n, 0, 255, 255, 255, 3]

theorem test_meets_RingRequestsAllocateStartAndStop :
    headIs (ask codeRingConfig (ringPayload 31 254 1) (withRing (windowRing .ready 0) State.reset))
        (rq codeRingConfig (ringPayload 31 254 1)) [] codeRingConfig ∧
      headIs (ask codeRingStart [3] State.reset) (rq codeRingStart [3]) [] codeRingStart ∧
      headIs (ask codeRingStop [3] State.reset) (rq codeRingStop [3]) [] codeRingStop ∧
      byteAt (ringPayload 31 254 1) 0 = (0 : Fin 4).val ∧ byteAt (ringPayload 31 254 1) 1 = RingMode.window.num ∧
      numAt (ringPayload 31 254 1) 2 2 = 8190 ∧ numAt (ringPayload 31 254 1) 4 2 = 1 ∧
      numAt (ringPayload 31 254 1) 6 4 ≤ 16777215 ∧ byteAt (ringPayload 31 254 1) 10 ≤ 3 ∧
      ¬((1 = 0) ∨ 8191 < 8190 ∨ 8192 < 8190 + 1 ∨
        ∃ j : Fin 4, j ≠ 0 ∧ (withRing (windowRing .ready 0) State.reset).cst.rings[j].mode ≠ .off ∧
          8190 < (withRing (windowRing .ready 0) State.reset).cst.rings[j].base +
            (withRing (windowRing .ready 0) State.reset).cst.rings[j].size ∧
          (withRing (windowRing .ready 0) State.reset).cst.rings[j].base < 8190 + 1) ∧
      numAt (ringPayload 32 0 1) 2 2 = 8192 ∧ 4 ≤ byteAt [4] 0 ∧ 3 ≤ byteAt [0, 3] 1 ∧ State.reset.cst.ready = false ∧
      (withRing (windowRing .ready 0) State.reset).cst.ready = true ∧
      ({ windowRing .streaming 0 with mode := .stream } : Ring).mode = .stream ∧
      ({ windowRing .ready 0 with mode := .stream } : Ring).state = .ready := by
  refine ⟨⟨rfl, rfl⟩, ⟨rfl, rfl⟩, ⟨rfl, rfl⟩, ?_⟩
  decide +kernel

/-- A streaming ring with one MARK. -/
def streaming : Ring :=
  { windowRing .streaming 0 with mode := .stream, entries := [.mark 9], reference := some 9, head := some 9 }

/-- A STREAM ring whose entries fill 16383 of its 16384 words, so many offers dropped. -/
def fullStream (dropped : Nat) : Ring :=
  { windowRing .streaming 0 with
    mode := .stream, entries := List.replicate 5461 (.mark 9), reference := some 9, head := some 9, dropped }

theorem test_meets_OffersAreWrittenDroppedOrDiscarded :
    State.reset.cst.rings[0].placed ∧ State.reset.cst.rings[0].mode = .off ∧ (windowRing .ready 0).placed ∧
      (windowRing .frozen 0).placed ∧ (windowRing .running 0).placed ∧ (windowRing .post 1).placed ∧
      (windowRing .running 0).mode = .window ∧ (fullStream 0).placed ∧ (fullStream 0).state = .streaming ∧
      (∀ n, (fullStream n).capacity < wordsOf ((fullStream n).write 9 fun d => .gap d n).entries) ∧ (fullStream 0).dropped = 0 ∧
      1 ≤ (fullStream 1).dropped ∧
      wordsOf ((streaming : Ring).write 9 fun d => .gap d 0).entries ≤ streaming.capacity ∧
      (fullStream 0).markDue = false ∧ (fullStream 0).sinceMark = 0 ∧ (fullStream 0).reference = some 9 ∧
      State.reset.tsq.run ≠ .triggered ∧ (withRun .triggered State.reset).tsq.run = .triggered ∧
      (∀ j : Fin 4, (withRun .triggered State.reset).tsq.post[j] ≠ some false) := by
  refine ⟨⟨rfl, rfl⟩, rfl, ?_, ?_, ?_, ?_, rfl, ⟨Nat.le_refl 1, Or.inr rfl⟩, rfl, ?_, ?_⟩
  iterate 4 simp [Ring.placed, windowRing, Ring.reset]
  · intro n
    have h : (fullStream n).needsMark 9 = false := by
      simp [Ring.needsMark, fullStream, windowRing, Ring.reset, deltaFits, deltaOf, -List.reduceReplicate]
    simp only [Ring.write, Ring.marked, h]
    simp [wordsOf, Entry.words, Ring.capacity, fullStream, windowRing, Config.blockWords, -List.reduceReplicate]
  decide +kernel

/-- An ordinary entry without a body. -/
def plainEntry (d : Int) : Entry := .ordinary 0 .edgeRise {} none d 0 0 []

theorem test_meets_WindowRingKeepsTheYoungest :
    (windowRing .running 1).sound ∧ (windowRing .running 1).placed ∧ (windowRing .post 1).sound ∧
      (windowRing .post 1).placed ∧ (windowRing .post 1).mode = .window ∧
      (∀ d d', (plainEntry d).words = (plainEntry d').words ∧ (plainEntry d).words ≤ 7 ∧
        (plainEntry d).isMark = false ∧ (plainEntry d).delta = d) := by
  refine ⟨?_, ?_, ?_, ?_, rfl, fun d d' => ⟨rfl, by simp [plainEntry, Entry.words], rfl, rfl⟩⟩
  · unfold Ring.sound
    decide +kernel
  · simp [Ring.placed, windowRing, Ring.reset]
  · unfold Ring.sound
    decide +kernel
  · simp [Ring.placed, windowRing, Ring.reset]

/-! ## Witnesses: scans -/

theorem test_meets_ScanPathsBringThePortToTheEndState :
    validScan drScan ∧ validScan { kind := .irScan, pause := true, length := 1, out := [true] } ∧ validScan tapReset ∧
      validScan { kind := .idleClocks, pause := false, length := 65535, out := [] } ∧ TapState.pauseIr ≠ .unknown := by
  simp [validScan, drScan, tapReset]

theorem test_meets_AbortedScanLeavesThePortWhereTracked :
    validScan drScan ∧ TapState.idle ≠ .unknown ∧
      scanPlan drScan .idle =
        (scanPlan drScan .idle).take 3 ++ { tms := false, part := .shift, out := some true } ::
          (scanPlan drScan .idle).drop 4 ∧
      (abortPlan { tms := false, part := .shift, out := some true } ((scanPlan drScan .idle).drop 4)).1 = .aborting ∧
      (abortPlan { tms := true, part := .shift, out := some true } ((scanPlan drScan .idle).drop 6)).1 = .shift ∧
      (abortPlan { tms := true, part := .shift, out := some true } ((scanPlan drScan .idle).drop 6)).2.2 = false ∧
      tapReset.kind = .tapReset ∧
      scanPlan tapReset .unknown =
        (scanPlan tapReset .unknown).take 4 ++ { tms := true, part := .resetHigh, out := none } ::
          (scanPlan tapReset .unknown).drop 5 := by
  refine ⟨by simp [validScan, drScan], ?_⟩
  decide +kernel

/-- A scan clocking at the fastest rate. -/
def clocking (f : Sce → Sce) : State :=
  let s := withScan .shift scanning State.reset
  { s with sce := f { s.sce with rate := 0, followed := true } }

/-- Half a TCK period of a state's rate, in core clocks. -/
def half (s : State) : Nat := 2 ^ (s.sce.rate.val + 1)

theorem test_meets_TckEdgesFollowTheRate :
    (clocking id).sce.running = some scanning ∧
      scanning.plan = { tms := false, part := .entry, out := none } :: [{ tms := false, part := .shift, out := some true }] ∧
      (clocking id).sce.phase = .shift ∧ (clocking id).sce.timeout = 0 ∧ (clocking id).sce.followed = true ∧
      (clocking id).sce.tck = false ∧ (clocking id).sce.edgeClocks + 1 < 2 ^ ((clocking id).sce.rate.val + 1) ∧
      (clocking fun u => { u with edgeClocks := 1 }).sce.edgeClocks + 1 = 2 ^ ((clocking id).sce.rate.val + 1) ∧
      1 ≤ (clocking fun u => { u with timeout := 1 }).sce.timeout ∧
      2 ^ ((clocking id).sce.rate.val + 1) ≤ (clocking fun u => { u with tck := true, edgeClocks := 2 }).sce.edgeClocks ∧
      (clocking fun u => { u with followed := false, timeout := 1, edgeClocks := 2 }).sce.tck = false ∧
      half (clocking id) ≤ (clocking fun u => { u with followed := false, timeout := 1, edgeClocks := 2 }).sce.edgeClocks ∧
      scanning.abortTaken = false ∧ (withScan .aborting scanning State.reset).sce.phase = .aborting ∧
      half (clocking id) = 2 ∧ (clocking fun u => { u with followed := false, tck := true }).sce.followed = false ∧
      (clocking fun u => { u with tck := true, edgeClocks := 2 }).sce.tck = true ∧
      (clocking fun u => { u with followed := false, timeout := 1, edgeClocks := 1 }).sce.followed = false ∧
      (clocking fun u => { u with followed := false, timeout := 1, edgeClocks := 1 }).sce.tck = false ∧
      half (clocking id) ≤ (clocking fun u => { u with followed := false, timeout := 1, edgeClocks := 1 }).sce.edgeClocks + 1 ∧
      ({ scanning with abortTaken := true } : Running).abortTaken = true ∧ scanning.stoppedShort = false ∧
      (abortPlan { tms := false, part := .entry, out := none } [{ tms := false, part := .shift, out := some true }]).1 =
        .aborting := by decide +kernel

/-- A station scan and a slot that wait. -/
def waiting (f : Sce → Sce) : State :=
  { State.reset with sce := f { State.reset.sce with tracked := .idle } }

def queuedSlot (u : Sce) : Sce := { u with slots := put u.slots 3 { state := .queued, scan := some drScan, result := none } }

theorem test_meets_ScanSubmitStartAndVerdict :
    headIs (ask codeScanSubmit [1, 0, 0, 3, 5] (waiting id)) (rq codeScanSubmit [1, 0, 0, 3, 5]) [] codeScanSubmit ∧
      8 ≤ (List.replicate 8 ({ ticket := tk 0, scan := drScan } : StationScan)).length ∧
      State.reset.sce.tracked = .unknown ∧ byteAt [1, 0, 0, 3, 5] 0 ≠ 2 ∧ byteAt [2, 0, 0, 0] 0 = 2 ∧
      scanAt [1, 0, 0, 3, 5] 0 = some drScan ∧ scanAt [1, 0, 0, 0] 0 = none ∧ (waiting id).sce.phase = .free ∧
      (waiting id).sce.tracked ≠ .unknown ∧ (waiting id).sce.powerLane = none ∧
      (waiting queuedSlot).sce.slots[3].state = .queued ∧ (waiting queuedSlot).sce.slots[3].scan = some drScan ∧
      (∀ m < (3 : Fin 4), (waiting queuedSlot).sce.slots[m].state ≠ .queued) ∧
      (∀ n : Fin 4, (waiting id).sce.slots[n].state ≠ .queued) ∧
      (waiting fun u => { u with queue := [{ ticket := tk 0, scan := drScan }] }).sce.queue =
        [{ ticket := tk 0, scan := drScan }] ∧
      (∃ i : Fin 16, (waiting fun u => { u with powerLane := some 15 }).sce.powerLane = some i ∧
        (waiting fun u => { u with powerLane := some 15 }).stu.lanes[i].accepted ≠
          (waiting fun u => { u with powerLane := some 15 }).sce.powerLevel) ∧
      ¬(∃ i : Fin 16, State.reset.sce.powerLane = some i ∧ State.reset.stu.lanes[i].accepted ≠ State.reset.sce.powerLevel) ∧
      drScan.kind ≠ .tapReset ∧ tapReset.kind = .tapReset ∧ (queuedSlot State.reset.sce).tracked = .unknown ∧
      (queuedSlot State.reset.sce).slots[3].state = .queued ∧ (withScan .guard scanning State.reset).sce.phase = .guard ∧
      (withScan .guard scanning State.reset).sce.running = some scanning ∧ scanning.abortTaken = false ∧
      (withScan .guard scanning State.reset).sce.tracked ≠ .unknown ∧
      scanPlan scanning.scan .idle =
        { tms := true, part := .entry, out := none } :: (scanPlan scanning.scan .idle).drop 1 := by
  refine ⟨⟨rfl, rfl⟩, ?_⟩
  decide +kernel

theorem test_meets_ScanEndsAndFaults :
    (withScan .shift { scanning with plan := [] } State.reset).sce.running = some { scanning with plan := [] } ∧
      (withScan .shift { scanning with plan := [] } State.reset).sce.followed = true ∧
      (clocking fun u => { u with followed := false, running := some { scanning with plan := [] } }).sce.followed = false ∧
      (withScan .shift { scanning with plan := [], stoppedShort := true } State.reset).sce.phase = .shift ∧
      (withScan .aborting { scanning with plan := [] } State.reset).sce.phase = .aborting ∧ scanning.plan ≠ [] ∧
      1 ≤ (clocking fun u => { u with timeout := 255, followed := false, edgeClocks := 31875 }).sce.timeout ∧
      125 * (clocking fun u => { u with timeout := 255, followed := false, edgeClocks := 31875 }).sce.timeout ≤ 31875 ∧
      (clocking fun u => { u with powerLane := some 15 }).sce.powerLane = some 15 ∧
      (clocking fun u => { u with powerLane := some 15, running := some { scanning with plan := [] } }).sce.phase = .shift ∧
      (withScan .shift { scanning with origin := .slot 3 } State.reset).sce.running =
        some { scanning with origin := .slot 3 } ∧
      (waiting queuedSlot).sce.slots[3].state = .queued ∧
      (waiting fun u => { u with powerLane := some 15 }).sce.phase = .free := by decide +kernel

theorem test_meets_ScanAbortConfigAndSlots :
    headIs (ask codeScanAbort [1] (clocking id)) (rq codeScanAbort [1]) [] codeScanAbort ∧
      headIs (ask codeScanConfig [7, 255, 15, 1] armedSet) (rq codeScanConfig [7, 255, 15, 1]) [] codeScanConfig ∧
      headIs (ask codeSlotLoad [3, 1, 0, 0, 3, 5] State.reset) (rq codeSlotLoad [3, 1, 0, 0, 3, 5]) [] codeSlotLoad ∧
      2 ≤ byteAt [2] 0 ∧ byteAt [0] 0 = 0 ∧ byteAt [1] 0 = 1 ∧ byteAt [7, 255, 15, 1] 0 = (7 : Fin 8).val ∧
      byteAt [7, 255, 15, 1] 2 = (15 : Fin 16).val ∧ armedSet.stu.lanes[15].mode = .sense ∧
      State.reset.stu.lanes[15].mode = .off ∧ 8 ≤ byteAt [8] 0 ∧ (16 ≤ byteAt [0, 0, 16] 2 ∧ byteAt [0, 0, 16] 2 ≠ 255) ∧
      State.reset.sce.phase = .free ∧ State.reset.sce.queue = [] ∧ (clocking id).sce.phase ≠ .free ∧
      byteAt [3, 1, 0, 0, 3, 5] 0 = (3 : Fin 4).val ∧ scanAt [3, 1, 0, 0, 3, 5] 1 = some drScan ∧
      State.reset.sce.slots[3].state = .empty ∧ (waiting queuedSlot).sce.slots[3].state = .queued ∧
      (put State.reset.sce.slots 3 { state := .loaded, scan := some drScan, result := none })[3].state = .loaded := by
  refine ⟨⟨rfl, rfl⟩, ⟨rfl, rfl⟩, ⟨rfl, rfl⟩, ?_⟩
  decide +kernel

/-! ## Witnesses: control lines -/

theorem test_meets_LineRequestsByModeAndState :
    headIs (ask codeLineSet [7, 0] State.reset) (rq codeLineSet [7, 0]) [] codeLineSet ∧
      headIs (ask codeLinePress [7, 0, 0] State.reset) (rq codeLinePress [7, 0, 0]) [] codeLinePress ∧
      byteAt [7, 0] 1 = 0 ∧ byteAt [7, 0] 0 = (7 : Fin 8).val ∧ numAt [7, 0, 0] 1 2 = 0 ∧ 8 ≤ byteAt [8, 0] 0 ∧
      (withMode .hold State.reset).dcu.mode = .hold ∧ (withMode .safe State.reset).dcu.mode = .safe ∧
      State.reset.dcu.mode = .normal ∧ State.reset.dcu.lines[7].guarded = none ∧
      State.reset.dcu.lines[7].state = .released ∧
      (withLine 7 { idleLine with state := .asserted } State.reset).dcu.lines[7].state = .asserted ∧
      (withLine 7 { idleLine with state := .pressing 5 99 } State.reset).dcu.lines[7].state = .pressing 5 99 ∧
      (withLine 7 { idleLine with state := .deferred { ticket := none, action := .press, width := 1 } 9 }
          State.reset).dcu.lines[7].state = .deferred { ticket := none, action := .press, width := 1 } 9 ∧
      (withLine 7
          { idleLine with
            guarded := some { request := { ticket := none, action := .press, width := 1 }, withdrawn := false } }
          State.reset).dcu.lines[7].guarded ≠ none ∧
      none ∉ State.reset.dcu.safeGuard ∧ none ∈ ({ State.reset.dcu with safeGuard := [none] } : Dcu).safeGuard := by
  refine ⟨⟨rfl, rfl⟩, ⟨rfl, rfl⟩, ?_⟩
  decide +kernel

/-- An assert request in guard. -/
def inGuard (withdrawn : Bool) : Guarded :=
  { request := { ticket := none, action := .assert, width := 0 }, withdrawn }

/-- Line 0 in guard, paired with line 1, which stands as given; the core clock is 250000. -/
def verdictOn (partner : Line) : State :=
  { withLine 1 partner (withLine 0 { idleLine with guarded := some (inGuard false) } (paired State.reset)) with
    clock := 250000 }

theorem test_meets_LineVerdictChecksModeInterlockAndGap :
    (verdictOn idleLine).dcu.lines[0].guarded = some (inGuard false) ∧ (inGuard true).withdrawn = true ∧
      (inGuard false).withdrawn = false ∧ (verdictOn idleLine).dcu.mode = .normal ∧
      (verdictOn idleLine).dcu.partner 0 = some (1, 2) ∧
      (verdictOn { idleLine with state := .asserted }).dcu.lines[1].state.active = true ∧
      (verdictOn idleLine).dcu.lines[1].state.active = false ∧
      (verdictOn { idleLine with lastRelease := some { clock := 1, stamp := 0 } }).clock < 1 + 125000 * 2 ∧
      0 + 125000 * 2 ≤ (verdictOn { idleLine with lastRelease := some { clock := 0, stamp := 0 } }).clock ∧
      State.reset.dcu.partner 0 = none := by decide +kernel

/-- Line 0 as given, paired with line 1; the core clock is 250000. -/
def lineAt (l partner : Line) : State := { withLine 1 partner (withLine 0 l (paired State.reset)) with clock := 250000 }

theorem test_meets_PressEndDeferralExpiryAndRelease :
    headIs (ask codeLineSet [0, 1] State.reset) (rq codeLineSet [0, 1]) [] codeLineSet ∧
      (lineAt { idleLine with state := .pressing 2 250000 } idleLine).dcu.lines[0].state = .pressing 2 250000 ∧
      250000 ≤ (lineAt { idleLine with state := .pressing 2 250000 } idleLine).clock ∧
      (lineAt { idleLine with state := .pressing 2 250001 } idleLine).clock < 250001 ∧
      (lineAt { idleLine with state := .deferred (inGuard false).request 250000 }
          { idleLine with lastRelease := some { clock := 0, stamp := 0 } }).dcu.lines[0].state =
        .deferred (inGuard false).request 250000 ∧
      (lineAt idleLine { idleLine with state := .asserted }).dcu.partner 0 = some (1, 2) ∧ byteAt [0, 1] 1 = 1 ∧
      2 ≤ byteAt [0, 2] 1 ∧ 8 ≤ byteAt [8, 1] 0 ∧
      (withLine 0 { idleLine with state := .asserted } State.reset).dcu.lines[0].state.active = true := by
  refine ⟨⟨rfl, rfl⟩, ?_⟩
  decide +kernel

theorem test_meets_LineConfigPairConfigAndModeSet :
    headIs (ask codeLineConfig [7, 0, 255, 3, 232] State.reset) (rq codeLineConfig [7, 0, 255, 3, 232]) [] codeLineConfig ∧
      headIs (ask codePairConfig [3, 0, 6, 7, 255] State.reset) (rq codePairConfig [3, 0, 6, 7, 255]) [] codePairConfig ∧
      headIs (ask codeModeSet [0] tripping) (rq codeModeSet [0]) [] codeModeSet ∧
      numAt [7, 0, 255, 3, 232] 3 2 = 1000 ∧ 1000 < numAt [7, 0, 255, 3, 233] 3 2 ∧
      (lineAt idleLine { idleLine with safeAsserted := true }).dcu.partner 0 = some (1, 2) ∧
      (lineAt idleLine { idleLine with safeAsserted := true }).dcu.lines[1].safeAsserted = true ∧
      State.reset.dcu.mode ≠ .safe ∧ byteAt [3, 0, 6, 7, 255] 0 = (3 : Fin 4).val ∧
      byteAt [3, 0, 6, 7, 255] 2 = (6 : Fin 8).val ∧ byteAt [3, 0, 6, 7, 255] 3 = (7 : Fin 8).val ∧
      (6 : Fin 8) ≠ 7 ∧ (∀ m : Fin 4, State.reset.dcu.pairs[m] = none) ∧
      State.reset.dcu.lines[6].safeAsserted = false ∧ State.reset.dcu.lines[6].state.active = false ∧
      byteAt [3, 1, 0, 0, 0] 1 = 1 ∧ 2 ≤ byteAt [3, 2, 0, 0, 0] 1 ∧ 3 ≤ byteAt [3] 0 ∧
      (withMode .safe State.reset).dcu.mode = .safe ∧
      ({ tripping.rmu.channels[7] with tripped := true } : Channel).protect = true ∧
      ({ State.reset.dcu with safeGuard := [some (tk codeModeSet), none] } : Dcu).safeGuard =
        some (tk codeModeSet) :: [none] := by
  refine ⟨⟨rfl, rfl⟩, ⟨rfl, rfl⟩, ⟨rfl, rfl⟩, ?_⟩
  decide +kernel

/-! ## Witnesses: the link -/

/-- A frame for the part with this code, payload length field and payload. -/
def frame (code : Byte) (n : Byte) (p : List Byte) : Frame :=
  { dst := 0x024A50540000, src := 0x0200000000AA, etherType := 0x9A17
    payload := [1, 1, 0, 7, code, 0, 0, n] ++ p ++ List.replicate (38 - p.length) 0, checkGood := true }

/-- The conditions of R188, and both outcomes of R189's checks. -/
theorem test_meets_FrameArrivalAcceptsAndChecks :
    (frame codeStop 0 []).checkGood = true ∧ State.reset.pins.linkDown = false ∧
      (frame codeStop 0 []).dst = 0x024A50540000 + State.reset.slu.fixture.setWidth 48 ∧
      (frame codeStop 0 []).etherType = 0x9A17 ∧ 8 ≤ (frame codeStop 0 []).payload.length ∧
      byteAt (frame codeStop 0 []).payload 1 = 1 ∧ State.reset.slu.owed.length < 64 ∧
      (byteAt (frame codeStop 0 []).payload 0 = 1 ∧ numAt (frame codeStop 0 []).payload 6 2 = 0) ∧
      (∃ form ∈ requestForms, form.code = codeStop ∧ form.least ≤ 0 ∧ 0 ≤ form.most) ∧
      numAt (frame codeStop 1 [0]).payload 6 2 = 1 ∧
      (∀ form ∈ requestForms, form.code = codeStop → ¬(form.least ≤ 1 ∧ 1 ≤ form.most)) ∧
      State.reset.slu.ingress.length < 8 ∧ 8 ≤ (List.replicate 8 (rq 0 [])).length ∧
      ({ frame codeStop 0 [] with checkGood := false } : Frame).checkGood ≠ true := by decide +kernel

/-- A state with a station address and this link. -/
def linked (f : Slu → Slu) : State :=
  { State.reset with slu := f { State.reset.slu with station := some 0x0200000000AA } }

/-- A frame being sent. -/
def sent : OutFrame := { dst := 1, src := 2, payload := [], answers := some 0 }

theorem test_meets_EgressSendsInOrder :
    (linked fun u => { u with sending := some sent }).slu.sending = some sent ∧ (linked id).slu.sending = none ∧
      (linked id).pins.linkDown = false ∧
      (linked fun u => { u with responses := [{ ticket := tk 1, status := .done, payload := [] }] }).slu.responses =
        { ticket := tk 1, status := .done, payload := [] } :: [] ∧
      (linked id).slu.responses = [] ∧ State.reset.slu.station = none ∧
      (linked id).slu.station = some 0x0200000000AA ∧ (linked fun u => { u with due := true }).slu.due = true ∧
      (linked id).slu.announced = [] ∧
      (linked fun u => { u with alerts := put u.alerts 15 { pending := true, level := 1 } }).slu.announced ≠ [] ∧
      (linked id).slu.due = false ∧ (linked fun u => { u with formed := some sent }).slu.formed = some sent ∧
      (linked id).slu.formed = none ∧ (linked id).cst.exportRing = none ∧
      (withRing streaming (linked id)).cst.exportRing = some 3 ∧
      (withRing streaming (linked id)).cst.rings[3].state = .streaming ∧
      (withRing streaming (linked id)).cst.rings[3].entries = [.mark 9] ∧
      ({ linked id with pins := { (linked id).pins with linkDown := true } } : State).pins.linkDown = true := by
  decide +kernel

/-- Alert source 5 pending at level 7, source 2 at level 3. -/
def alerting : State :=
  linked fun u =>
    { u with alerts := put (put u.alerts 4 { pending := true, level := 7 }) 1 { pending := true, level := 3 }, mask := 6 }

theorem test_meets_AlertsPendAnnounceAndClear :
    headIs (ask codeAlertConfig (List.replicate 17 7) State.reset) (rq codeAlertConfig (List.replicate 17 7)) []
        codeAlertConfig ∧
      headIs (ask codeAlertClear [255, 255] alerting) (rq codeAlertClear [255, 255]) [] codeAlertClear ∧
      headIs (ask codeAlertNext [] alerting) (rq codeAlertNext []) [] codeAlertNext ∧
      (15 : Fin 16) = AlertSource.timeSetApplied.index ∧ (∀ i ≤ 16, byteAt (List.replicate 17 7) i ≤ 7) ∧
      8 ≤ byteAt (List.replicate 16 7 ++ [8]) 16 ∧ (∀ i : Fin 16, alerting.slu.alerts[i].level ≤ 7) ∧
      (∀ i : Fin 16, State.reset.slu.alerts[i].pending = false) ∧ alerting.slu.alerts[4].pending = true ∧
      (∀ j : Fin 16, alerting.slu.alerts[j].pending = true →
        alerting.slu.alerts[j].level < alerting.slu.alerts[4].level ∨
          (alerting.slu.alerts[j].level = alerting.slu.alerts[4].level ∧ (4 : Fin 16) ≤ j)) := by
  refine ⟨⟨rfl, rfl⟩, ⟨rfl, rfl⟩, ⟨rfl, rfl⟩, ?_⟩
  decide +kernel

theorem test_meets_SoftResetAnswersAndResets :
    headIs (ask codeSoftReset [] armedSet) (rq codeSoftReset []) [] codeSoftReset := ⟨rfl, rfl⟩

/-- A frozen window ring with two entries. -/
def frozen : Ring := { windowRing .frozen 0 with entries := [.mark 9, plainEntry 4], reference := some 9, head := some 9 }

theorem test_meets_ReadingRequestsChangeNothing :
    headIs (ask codeTimeRead [] State.reset) (rq codeTimeRead []) [] codeTimeRead ∧
      headIs (ask codeEntryRead [0, 255] State.reset) (rq codeEntryRead [0, 255]) [] codeEntryRead ∧
      headIs (ask codeRingRead [3, 0, 0, 0, 2, 0, 1] (withRing frozen State.reset))
        (rq codeRingRead [3, 0, 0, 0, 2, 0, 1]) [] codeRingRead ∧
      byteAt [0, 255] 0 = 0 ∧ byteAt [1, 63] 0 = 1 ∧ byteAt [1, 63] 1 = (63 : Fin 64).val ∧ byteAt [0, 255] 1 = 255 ∧
      2 ≤ byteAt [2, 0] 0 ∧ (64 ≤ byteAt [0, 64] 1 ∧ byteAt [0, 64] 1 ≠ 255) ∧
      (withRing frozen State.reset).cst.ready = true ∧ byteAt [3, 0, 0, 0, 2, 0, 1] 0 = (3 : Fin 4).val ∧
      numAt [3, 0, 0, 0, 2, 0, 1] 1 4 ≤ (withRing frozen State.reset).cst.rings[3].entries.length ∧
      (withRing frozen State.reset).cst.rings[3].entries.length < numAt [3, 0, 0, 0, 3, 0, 1] 1 4 ∧
      1 ≤ numAt [3, 0, 0, 0, 2, 0, 1] 5 2 ∧ numAt [3, 0, 0, 0, 2, 0, 0] 5 2 = 0 ∧
      (withRing frozen State.reset).cst.rings[3].mode = .window ∧
      (withRing frozen State.reset).cst.rings[3].state = .frozen ∧ State.reset.cst.ready = false ∧
      byteAt [1] 0 = (1 : Fin 2).val ∧ byteAt [7] 0 = (7 : Fin 8).val := by
  refine ⟨⟨rfl, rfl⟩, ⟨rfl, rfl⟩, ⟨rfl, rfl⟩, ?_⟩
  decide +kernel

/-! ## Witnesses: the invariants, in states that hold something -/

theorem test_meets_StoresStayWithinTheirPlaces :
    (holding 32 4 255 (ask codeStop [] State.reset)).storesWithin := by
  unfold State.storesWithin State.countsWithin Hold.within
  decide +kernel

theorem test_meets_InterlockAndSafeLevelsHold :
    (withMode .safe (lineAt { idleLine with state := .asserted, safeAsserted := true } idleLine)).dcu.safeHeld ∧
      (lineAt { idleLine with state := .asserted, safeAsserted := true } idleLine).dcu.interlocked := by
  unfold Dcu.safeHeld Dcu.interlocked Pair.has
  decide +kernel

theorem test_meets_RingsStaySound :
    (withRing frozen State.reset).cst.sound ∧ (holding 3 4 0 (withRing frozen State.reset)).bodiesWithin := by
  refine ⟨⟨fun i => ⟨?_, ?_, ?_⟩, ?_⟩, ?_⟩
  · revert i
    unfold Ring.sound
    decide +kernel
  · revert i
    intro i
    fin_cases i <;> simp [Ring.placed, withRing, frozen, windowRing, ready, setRing, put, State.reset, Cst.reset, Ring.reset]
  · revert i
    decide +kernel
  · unfold Ring.apart
    decide +kernel
  · unfold State.bodiesWithin Record.bodyWithin
    decide +kernel

theorem test_meets_EveryRequestIsAnsweredOnce :
    (ask codeStop [] State.reset).answersOnce ∧ (ask codeStop [] State.reset).holdersSingle := by
  refine ⟨⟨?_, ?_, ?_, ?_⟩, ?_⟩
  · decide +kernel
  · decide +kernel
  · decide +kernel
  · decide +kernel
  · unfold State.holdersSingle
    decide +kernel

/-! ## Single steps -/

/-- Of two STREAMING rings the one of higher priority is exported; of equal ones the lower number. -/
theorem test_exportRing (p : Fin 4) :
    (withRing { streaming with priority := 1 }
        (setRing 1 { streaming with priority := p.val } State.reset)).cst.exportRing =
      if p.val < 1 then some 3 else some 1 := by
  revert p
  decide +kernel

/-- A scan whose last falling edge RCLK has not followed. -/
def unfollowedEnd (clocks : Nat) : State :=
  clocking fun u =>
    { u with timeout := 1, followed := false, edgeClocks := clocks, running := some { scanning with plan := [] } }

/-- It does not complete, it completes once RCLK is low, and it can time out. -/
theorem test_lastEdgeIsWaitedFor :
    (after .scanComplete (unfollowedEnd 7)).sce.phase = .shift ∧
      (after .scanComplete (after (.tckClock false true) (unfollowedEnd 7))).sce.tracked = .idle ∧
      (after .scanComplete (after (.tckClock false true) (unfollowedEnd 7))).sce.phase = .free ∧
      (after .returnClockTimeout (unfollowedEnd 124)).sce.phase = .shift ∧
      (after .returnClockTimeout (unfollowedEnd 125)).sce.tracked = .unknown := by decide +kernel

/-- RCLK sampled low after half a period drives the rising edge that waited for it, at that clock. -/
theorem test_riseAtFollow :
    let u := (after (.tckClock false true) (clocking fun u => { u with followed := false, timeout := 1, edgeClocks := 7 })).sce
    (u.tck, u.edgeClocks, u.followed, u.running) = (true, 0, false, some scanning) := by decide +kernel

/-- RAIL READ after reset begins with position 7, converter idle yes, protected trip held no, as chapter 3 lists yes, no. -/
theorem test_railRead : State.reset.rmu.bytes.take 3 = [7, 0, 1] := by decide +kernel

/-- RING STATUS gives TRUNCATED and STOPPED as chapter 7 lists them, set or clear. -/
theorem test_ringStatus (truncated stopped : Bool) :
    ((({ Ring.reset with truncated, stopped } : Ring).bytes.drop 35).take 2) =
      [if truncated then 0 else 1, if stopped then 0 else 1] := by
  revert truncated stopped
  decide +kernel

/-- A TRIG entry in an empty RUNNING ring with post count 2: its MARK, the TRIG with delta 0, POST. -/
theorem test_trigger :
    (windowRing .running 2).trigger 9 { level := 0, branch := none, cls := none } =
      { windowRing .post 2 with
        entries := [.mark 9, .trig 0 { level := 0, branch := none, cls := none }], reference := some 9, head := some 9
        sinceMark := 1, trig := some 1 } := by
  decide +kernel

/-- The power lane lost at a scan's last clock, before its completion: the slot is FAILED with what it shifted. -/
theorem test_powerLossBeforeCompletion :
    ((scanPowerEdge 15 (!State.reset.sce.powerLevel)
        (clocking fun u =>
          { u with
            powerLane := some 15
            running := some { scanning with origin := .slot 3, plan := [], tdo := [true] } })).sce.slots[3].state,
      (scanPowerEdge 15 (!State.reset.sce.powerLevel)
        (clocking fun u =>
          { u with
            powerLane := some 15
            running := some { scanning with origin := .slot 3, plan := [], tdo := [true] } })).sce.slots[3].result) =
      (.failed, some { outcome := .noPower, tdo := [true] }) := by decide +kernel


/-- The front command runs on the state with the queue's rest. -/
theorem test_step_front : step { State.reset with pending := [.linkDown true] } = exec (.linkDown true) State.reset :=
  rfl

/-- IDENTIFY after reset: 6124, revision 1, fixture 0, memory not ready, IDLE, NORMAL, UNKNOWN. -/
theorem test_identify :
    replies .identify (ask codeIdentify [] State.reset) = [(.done, [0x61, 0x24, 1, 0, 1, 0, 0, 4])] := by decide +kernel

/-- TIME READ after reset. -/
theorem test_timeRead :
    replies .timeRead (ask codeTimeRead [] State.reset) =
      [(.done, [0, 0, 0, 0, 0, 0, 0, 0, 3, 232, 0, 0, 0, 0, 0, 0, 0, 0, 0])] := by decide +kernel

/-- A trim of −128 is stored as −15. -/
theorem test_timeTrim :
    replies .timeTrim (ask codeTimeTrim [0, 0, 0, 5, 128] State.reset) = [(.done, [0, 0, 0, 5, 0xF1])] := by decide +kernel

/-- TIME SET IMMEDIATE: the base takes the value, and its record carries the value's low 32 bits. -/
theorem test_timeSet :
    (after .timeSetImmediate (ask codeTimeSet [0, 0, 1, 2, 3, 4, 5, 6] State.reset)).tbu.base = 0x010203040506 ∧
      (after .timeSetImmediate (ask codeTimeSet [0, 0, 1, 2, 3, 4, 5, 6] State.reset)).hold[32].fifo.map (·.key) =
        [0x03040506] := by decide +kernel

/-- An ended core clock moves the base by 8 ns. -/
theorem test_coreClock : (coreClock State.reset).tbu.base = 8 ∧ (coreClock State.reset).clock = 1 := by decide +kernel

/-- An accepted rising edge is recorded with its lane, level and stamp. -/
theorem test_laneAcceptance :
    (after (.laneAcceptance 15) (withLane 15 { sense with filter := .pending 40 125 } State.reset)).hold[15].fifo.map
        (fun r => (r.kind, r.stamp, r.key)) = [(.edgeRise, 40, 0xF8000000)] := by decide +kernel

/-- A glitch of 100 clocks, recorded as 0 µs. -/
theorem test_glitch :
    (after (.glitch 0 false) (withLane 0 { sense with filter := .pending 40 100 } State.reset)).stu.lanes[0].glitchCount = 1 ∧
      (after (.glitch 0 false) (withLane 0 { sense with filter := .pending 40 100 } State.reset)).hold[0].fifo.map (·.key) =
        [0] := by decide +kernel

/-- A move that the table does not allow: a STATE and a SEQ-VIOLATION record. -/
theorem test_episodeExpiry :
    (after .episodeExpiry (expired 0 .suspend)).hold[16].fifo.map (fun r => (r.kind, r.key)) =
      [(.state, 0x22000000), (.seqViolation, 0x22000000)] := by decide +kernel

/-- The conversion of a protected channel at its trip level: SAFE. -/
theorem test_conversionEnd :
    (after (.conversionEnd 1000) tripping).dcu.mode = .safe ∧
      (after (.conversionEnd 1000) tripping).rmu.channels[7].tripped = true := by decide +kernel

/-- A protected trip with a sample due and a blank that ends at the SAFE entry: RAIL-TRIP, RAIL-SAMPLE, then the released
window record. -/
theorem test_conversionEnd_order :
    (after (.conversionEnd 1000)
        (withLine 0 { idleLine with state := .asserted, mask := 128 }
          (withChannel 7
            { Channel.reset with
              enabled := true, high := 500, protect := true, trip := 1000, decim := 1, window := .inside, blanked := true
              blankLatch := .inside }
            { tripping with
              rmu := { tripping.rmu with lines := put tripping.rmu.lines 0 { active := true, mask := 128 } } }))).hold[
          srcRail 7].fifo.map (·.kind) = [.railTrip, .railSample, .railLeaveHigh] := by decide +kernel

/-- A check whose BREF count has reached 255 falls due, ends and answers with the three counts. -/
theorem test_clockCheckEnd :
    dueEvents checking = [.clockCheckEnd 0 0] ∧ replies (.clockCheckEnd 0 0) checking = [(.done, [200, 255, 3])] ∧
      (after (.clockCheckEnd 0 0) checking).stu.check = { running := none, core := 200, bref := 255, rclk := 3 } := by
  decide +kernel

/-- Before it, a core clock counts one core edge and BREF's, and a rise of RCLK counts one. -/
theorem test_clockCheck_counts :
    (coreClock counted).stu.check = { running := some (tk codeClockCheck), core := 255, bref := 11, rclk := 0 } ∧
      (after (.tckClock true false) counted).stu.check.rclk = 1 := by decide +kernel

/-- LINE STATUS after reset begins with NORMAL, no protected trip held (1, absent) and no SAFE request in guard. -/
theorem test_lineStatus : (lineStatusBytes State.reset).take 3 = [0, 1, 0] := by decide +kernel

/-- A request refused at its serving has an empty payload. -/
theorem test_railConfig_refused :
    replies .railConfig (ask codeRailConfig (List.replicate 15 8) State.reset) = [(.range, [])] := by decide +kernel

/-- A START opens a bus record with the stamp of the change. -/
theorem test_busStart :
    (after (.busStart 1) (dataMoves true)).btu.buses[1].phase = .address ∧
      (after (.busStart 1) (dataMoves true)).btu.buses[1].openRecord.map (·.stamp) = some 40 := by decide +kernel

/-- A stop bit sampled high: the byte joins the open record. -/
theorem test_consoleByte :
    (after (.consoleByte 1 true)
        (sampling fun c => { c with rx := .stop, ticks := 151, bits := bitsOf [65] 8 })).btu.consoles[1].openRecord.map
          (·.bytes) = some [65] := by decide +kernel

/-- The fifth record of a full source is discarded and counted, and RECORD-LOSS is set. -/
theorem test_produce_full :
    (produce (rec 3 .edgeRise) (holding 3 4 0 State.reset)).hold[3].lost = 1 ∧
      (produce (rec 3 .edgeRise) (holding 3 4 0 State.reset)).slu.alerts[8].pending = true := by decide +kernel

/-- An admission takes the oldest record of the next source. -/
theorem test_admission :
    (after .admission (holding 32 1 0 State.reset)).cle.queue = [rec 32 .edgeRise] ∧
      (after .admission (holding 32 1 0 State.reset)).cle.position = 32 := by decide +kernel

/-- The deciding entry's hit is counted. -/
theorem test_classify : (after .classifyRecord classifying).cle.hits[63] = 1 := by decide +kernel

/-- A counter reaches its compare at a tick and returns to 0. -/
theorem test_tick :
    (after .tick (counting .tick)).tsq.counters[3].count = 0 ∧ (after .tick (counting .tick)).tbu.tickDue = false := by
  decide +kernel

/-- TRIGGER NOW with a post count of 0: the ring freezes and the run is DONE. -/
theorem test_triggerNow :
    (after .triggerNow (ask codeTriggerNow [] (withRun .armed (withRing (windowRing .running 0) State.reset)))).tsq.run =
        .done ∧
      (after .triggerNow (ask codeTriggerNow [] (withRun .armed (withRing (windowRing .running 0) State.reset)))).cst.rings[3].state =
        .frozen := by decide +kernel

/-- RING READ of a frozen ring: the header and the words of its entries. -/
theorem test_ringRead :
    replies .ringRead (ask codeRingRead [3, 0, 0, 0, 0, 0, 1] (withRing frozen State.reset)) =
      [(.done, [3, 1, 0, 0, 0, 0, 0, 9, 0, 0, 0, 1, 0, 0, 0, 2] ++ [0x40, 0, 0, 0, 0, 0, 0, 0, 0, 0, 0, 9])] := by
  decide +kernel

/-- A DR-SCAN from IDLE of 3 bits: 3 clocks in, 3 shifted with TMS high on the last, 2 out. -/
theorem test_scanPlan :
    (scanPlan drScan .idle).map (·.tms) = [true, false, false, false, false, true, true, false] := by decide +kernel

/-- A scan submitted to a FREE engine enters GUARD with its SCAN-START record. -/
theorem test_scanSubmit :
    (after .scanSubmit (ask codeScanSubmit [1, 0, 0, 3, 5] (waiting id))).sce.phase = .guard ∧
      (after .scanSubmit (ask codeScanSubmit [1, 0, 0, 3, 5] (waiting id))).hold[30].fifo.map (·.key) = [0x00400003] := by
  decide +kernel

/-- A granted assert: the line is ASSERTED and the DRIVE-ASSERT record carries the line. -/
theorem test_lineVerdict :
    (lineVerdict false 0 (verdictOn idleLine)).dcu.lines[0].state = .asserted ∧
      (lineVerdict false 0 (verdictOn idleLine)).hold[31].fifo.map (fun r => (r.kind, r.key)) = [(.driveAssert, 0)] := by
  decide +kernel

/-- STOP with a payload byte is BAD, and without one it is queued. -/
theorem test_frameArrival :
    replies (.frameArrival (frame codeStop 1 [0])) State.reset = [(.bad, [])] ∧
      (after (.frameArrival (frame codeStop 0 [])) State.reset).slu.ingress.map (·.ticket.code) = [codeStop] := by
  decide +kernel

/-- ALERT NEXT names the pending source of the highest level. -/
theorem test_alertNext :
    replies .alertNext (ask codeAlertNext [] alerting) = [(.done, [5, 7, 2])] := by decide +kernel

end Sys2Proof.Tests
end

section
/-! The Time Base Unit: what one core clock does to the frame position, the trim frame, and TIME TRIM (R11-R13). -/

namespace Sys2Proof.Machine

open Sys2Proof.Claims

/-! ## The periods the trim selects (R12) -/

/-- The periods of the digit 3 are the even ones of the frame. -/
theorem mem_namedPeriods_three {n : Nat} (h1 : 1 ≤ n) (h16 : n ≤ 16) : n ∈ namedPeriods 3 ↔ n % 2 = 0 := by
  simp only [namedPeriods, List.mem_cons, List.not_mem_nil, or_false]
  omega

theorem selected_iff_digit (t : Int) (n : Nat) :
    selected t n ↔ (t.natAbs.testBit 0 = true ∧ n ∈ namedPeriods 0) ∨ (t.natAbs.testBit 1 = true ∧ n ∈ namedPeriods 1) ∨
      (t.natAbs.testBit 2 = true ∧ n ∈ namedPeriods 2) ∨ (t.natAbs.testBit 3 = true ∧ n ∈ namedPeriods 3) := by
  constructor
  · rintro ⟨k, hk, h⟩
    interval_cases k <;> simp only [h, true_or, or_true, and_self]
  · rintro (h | h | h | h)
    · exact ⟨0, by decide, h⟩
    · exact ⟨1, by decide, h⟩
    · exact ⟨2, by decide, h⟩
    · exact ⟨3, by decide, h⟩

theorem trimSelects_iff_selected (t : Int) {n : Nat} (h1 : 1 ≤ n) (h16 : n ≤ 16) :
    trimSelects t n = true ↔ selected t n := by
  rw [selected_iff_digit, mem_namedPeriods_three h1 h16]
  simp [trimSelects, namedPeriods, or_assoc]

theorem not_selected_zero (n : Nat) : ¬selected 0 n := by
  simp [selected]

/-- Which periods are selected depends on the magnitude of T alone. -/
theorem selectedUpTo_natAbs (t : Int) (j : Nat) : selectedUpTo (t.natAbs : Int) j = selectedUpTo t j := rfl

@[simp] theorem selectedUpTo_zero (t : Int) : selectedUpTo t 0 = 0 := rfl

theorem selectedUpTo_succ (t : Int) (j : Nat) :
    selectedUpTo t (j + 1) = selectedUpTo t j + if trimSelects t (j + 1) then 1 else 0 := by
  cases h : trimSelects t (j + 1) <;> simp [selectedUpTo, List.range_succ, h]

/-- Over the magnitudes 0 to 15: the digits' periods are all different, so a frame has as many as the magnitude. -/
theorem selectedUpTo_frame_of_nat : ∀ m < 16, selectedUpTo ((m : Nat) : Int) 16 = m := by decide

/-- The periods selected so far, 16-fold, against |T|'s even share of them: from `j` periods to the end of the next they
differ by less than 32. This is why the 2 ns of R12 suffice. -/
theorem selectedUpTo_near_line_of_nat :
    ∀ m < 16, ∀ j < 17, m * (j + 1) ≤ 16 * selectedUpTo ((m : Nat) : Int) j + 31 ∧
      16 * selectedUpTo ((m : Nat) : Int) j ≤ m * j + 31 := by
  decide

/-- Exactly |T| periods of a frame are selected (R12). -/
theorem selectedUpTo_frame {t : Int} (h1 : -15 ≤ t) (h2 : t ≤ 15) : selectedUpTo t 16 = t.natAbs := by
  rw [← selectedUpTo_natAbs]
  exact selectedUpTo_frame_of_nat t.natAbs (by omega)

/-! ## One core clock at the frame position (R11, R12) -/

@[simp] theorem Tbu.advance_period (u : Tbu) : u.advance.period = u.period := rfl
@[simp] theorem Tbu.advance_trim (u : Tbu) : u.advance.trim = u.trim := rfl
@[simp] theorem Tbu.advance_base (u : Tbu) : u.advance.base = u.base + BitVec.ofInt 48 u.increment := rfl

section
variable {u : Tbu}

theorem Tbu.advance_frameClock_within (h : u.frameClock < u.period) : u.advance.frameClock = u.frameClock + 1 := by
  simp [Tbu.advance, Nat.not_le.mpr h]

theorem Tbu.advance_framePeriod_within (h : u.frameClock < u.period) : u.advance.framePeriod = u.framePeriod := by
  simp [Tbu.advance, Nat.not_le.mpr h]

theorem Tbu.increment_within (h : u.frameClock < u.period) : u.increment = 8 := by
  simp [Tbu.increment, Nat.not_le.mpr h]

theorem Tbu.advance_frameClock_last (h : u.frameClock = u.period) : u.advance.frameClock = 1 := by
  simp [Tbu.advance, h]

theorem Tbu.advance_framePeriod_last (h : u.frameClock = u.period) :
    u.advance.framePeriod = u.framePeriod % 16 + 1 := by
  simp [Tbu.advance, h]

theorem Tbu.increment_last (h : u.frameClock = u.period) :
    u.increment = 8 + u.trim.sign * ((if trimSelects u.trim u.framePeriod then 1 else 0 : Nat) : Int) := by
  cases hs : trimSelects u.trim u.framePeriod <;> simp [Tbu.increment, h, hs]

end

/-! ## A run of core clocks from clock 1 of period 1 (R12) -/

/-- The Time Base Unit `v` stands after `j` whole periods and `r` clocks of a frame that `u` began: its position, and a
base that each of the selected periods passed has put ahead or behind by 1 ns. -/
structure Tbu.InFrameAt (u : Tbu) (j r : Nat) (v : Tbu) : Prop where
  period : v.period = u.period
  trim : v.trim = u.trim
  framePeriod : v.framePeriod = j % 16 + 1
  frameClock : v.frameClock = r + 1
  base : v.base = u.base + BitVec.ofInt 48 (8 * (j * u.period + r : Nat) + u.trim.sign * selectedUpTo u.trim j)

theorem Tbu.inFrameAt_start {u : Tbu} (hp : u.framePeriod = 1) (hc : u.frameClock = 1) : u.InFrameAt 0 0 u where
  period := rfl
  trim := rfl
  framePeriod := hp
  frameClock := hc
  base := by simp

namespace Tbu.InFrameAt

variable {u v : Tbu} {j r : Nat}

/-- A clock that is not the last of its period adds 8 ns. -/
theorem advance_within (h : u.InFrameAt j r v) (hr : r + 1 < u.period) : u.InFrameAt j (r + 1) v.advance := by
  have hlt : v.frameClock < v.period := by rw [h.frameClock, h.period]; exact hr
  refine ⟨h.period, h.trim, ?_, ?_, ?_⟩
  · rw [advance_framePeriod_within hlt, h.framePeriod]
  · rw [advance_frameClock_within hlt, h.frameClock]
  · rw [advance_base, increment_within hlt, h.base, BitVec.add_assoc, ← BitVec.ofInt_add]
    congr 2
    push_cast
    ring

/-- The last clock of a period adds the trim's nanosecond where the period is selected. -/
theorem advance_last (h : u.InFrameAt j r v) (hr : r + 1 = u.period) (hj : j < 16) :
    u.InFrameAt (j + 1) 0 v.advance := by
  have hlast : v.frameClock = v.period := by rw [h.frameClock, h.period]; exact hr
  have hperiod : v.framePeriod = j + 1 := by rw [h.framePeriod, Nat.mod_eq_of_lt hj]
  refine ⟨h.period, h.trim, ?_, ?_, ?_⟩
  · rw [advance_framePeriod_last hlast, hperiod]
  · rw [advance_frameClock_last hlast]
  · rw [advance_base, increment_last hlast, h.base, h.trim, hperiod, BitVec.add_assoc, ← BitVec.ofInt_add,
      selectedUpTo_succ, ← hr]
    congr 2
    push_cast
    ring

end Tbu.InFrameAt

/-- Every number of clocks up to a frame's brings the position that many clocks on. -/
theorem Tbu.inFrameAt_iterate {u : Tbu} (h0 : u.InFrameAt 0 0 u) (hP : 1 ≤ u.period) (k : Nat) (hk : k ≤ 16 * u.period) :
    ∃ j r, k = j * u.period + r ∧ r < u.period ∧ u.InFrameAt j r (Tbu.advance^[k] u) := by
  induction k with
  | zero => exact ⟨0, 0, by simp, hP, h0⟩
  | succ k ih =>
    obtain ⟨j, r, rfl, hr, h⟩ := ih (by omega)
    rw [Function.iterate_succ_apply']
    rcases Nat.lt_or_eq_of_le (Nat.succ_le_of_lt hr) with hlt | hlast
    · exact ⟨j, r + 1, rfl, hlt, h.advance_within hlt⟩
    · have hj : j < 16 := Nat.lt_of_mul_lt_mul_right (a := u.period) (by omega)
      refine ⟨j + 1, 0, ?_, hP, h.advance_last hlast hj⟩
      rw [Nat.succ_mul]
      omega

/-- The position after a whole frame is where the frame began. -/
theorem Tbu.inFrameAt_frame {u : Tbu} (h0 : u.InFrameAt 0 0 u) (hP : 1 ≤ u.period) :
    u.InFrameAt 16 0 (Tbu.advance^[16 * u.period] u) := by
  obtain ⟨j, r, hk, hr, h⟩ := inFrameAt_iterate h0 hP _ le_rfl
  have hr0 : r = 0 := by
    have hmod := congrArg (· % u.period) hk
    simpa [Nat.mul_comm j, Nat.mod_eq_of_lt hr] using hmod.symm
  subst hr0
  obtain rfl : 16 = j := Nat.eq_of_mul_eq_mul_right hP hk
  exact h

/-! ## The straight line of slope 8 + T / (16P) (R12) -/

/-- After `j` whole periods and `r` clocks the selected periods passed are near |T|'s share of the frame. -/
theorem selectedUpTo_near_line {t : Int} (h1 : -15 ≤ t) (h2 : t ≤ 15) {j r p : Nat} (hj : j ≤ 16) (hr : r < p) :
    |16 * (p : Int) * selectedUpTo t j - t.natAbs * (j * p + r : Nat)| < 32 * p := by
  obtain ⟨hlow, hhigh⟩ := selectedUpTo_near_line_of_nat t.natAbs (by omega) j (by omega)
  rw [selectedUpTo_natAbs] at hlow hhigh
  have hlowP := Nat.mul_le_mul_left p hlow
  have hhighP := Nat.mul_le_mul_left p hhigh
  have hpart : t.natAbs * r ≤ t.natAbs * p := Nat.mul_le_mul_left _ hr.le
  have hpart0 : 0 ≤ t.natAbs * r := Nat.zero_le _
  rw [abs_lt]
  zify at hlowP hhighP hpart hpart0 hr ⊢
  constructor <;> linarith

/-- The offset from 8 ns a clock stays within 2 ns of the line, whatever the sign of T. -/
theorem trim_offset_near_line {t : Int} (h1 : -15 ≤ t) (h2 : t ≤ 15) {j r p : Nat} (hj : j ≤ 16) (hr : r < p) :
    |16 * (p : Int) * (t.sign * selectedUpTo t j) - t * (j * p + r : Nat)| < 32 * p := by
  have hfactor : 16 * (p : Int) * (t.sign * selectedUpTo t j) - t * (j * p + r : Nat) =
      t.sign * (16 * p * selectedUpTo t j - t.natAbs * (j * p + r : Nat)) := by
    have ht : t * (j * p + r : Nat) = t.sign * t.natAbs * (j * p + r : Nat) := by rw [Int.sign_mul_natAbs]
    rw [ht]
    ring
  have hsign : |t.sign| ≤ 1 := by
    rcases Int.sign_trichotomy t with h | h | h <;> simp [h]
  calc |16 * (p : Int) * (t.sign * selectedUpTo t j) - t * (j * p + r : Nat)|
      = |t.sign| * |16 * (p : Int) * selectedUpTo t j - t.natAbs * (j * p + r : Nat)| := by rw [hfactor, abs_mul]
    _ ≤ |16 * (p : Int) * selectedUpTo t j - t.natAbs * (j * p + r : Nat)| :=
        mul_le_of_le_one_left (abs_nonneg _) hsign
    _ < 32 * p := selectedUpTo_near_line h1 h2 hj hr

/-! ## The frame (R12) -/

/-- Settles O5: by induction on the core clocks of a frame the base is ahead of 8 ns a clock by one signed nanosecond for
each selected period passed, and the digits' table keeps that count near the line. -/
theorem trimFrameAdvancesTimeBase : Obligations.TrimFrameAdvancesTimeBase := by
  refine ⟨fun u hu => ?_, fun t h1 h2 => ⟨fun n hn hn' => trimSelects_iff_selected t hn hn', selectedUpTo_frame h1 h2⟩,
    not_selected_zero, fun u hu hp hc => ?_⟩
  · obtain ⟨-, -, -, -, h16, -⟩ := hu
    refine ⟨fun h => ⟨Tbu.advance_frameClock_within h, Tbu.advance_framePeriod_within h⟩, fun h =>
      ⟨Tbu.advance_frameClock_last h, ?_⟩⟩
    rw [Tbu.advance_framePeriod_last h]
    split <;> omega
  · obtain ⟨hP, hlow, hhigh, -⟩ := hu
    have h0 := Tbu.inFrameAt_start hp hc
    have hframe := Tbu.inFrameAt_frame h0 hP
    refine ⟨?_, hframe.framePeriod, hframe.frameClock, fun k hk => ?_⟩
    · rw [hframe.base, selectedUpTo_frame hlow hhigh, Int.sign_mul_natAbs]
      congr 2
      push_cast
      ring
    · obtain ⟨j, r, rfl, hr, h⟩ := Tbu.inFrameAt_iterate h0 hP k hk
      have hj : j ≤ 16 := Nat.le_of_mul_le_mul_right (by omega) hP
      exact ⟨_, h.base, trim_offset_near_line hlow hhigh hj hr⟩

/-! ## TIME TRIM (R13) -/

theorem exec_timeTrim (s : State) : exec .timeTrim s = .next (serve codeTimeTrim serveTimeTrim s) := rfl

/-- The clamp, case by case. -/
theorem clampTrim_eq (t : Int) : clampTrim t = if t < -15 then -15 else if 15 < t then 15 else t := by
  unfold clampTrim
  split_ifs <;> omega

section
variable {s : State} {q : Request} {rest : List Request}

theorem serveTimeTrim_range (h : numAt q.payload 0 4 = 0 ∨ 65536 < numAt q.payload 0 4) :
    serveTimeTrim q s = answered q.ticket .range [] s :=
  if_pos h

theorem serveTimeTrim_stored (h : ¬(numAt q.payload 0 4 = 0 ∨ 65536 < numAt q.payload 0 4)) :
    serveTimeTrim q s =
      answered q.ticket .done (num 4 (numAt q.payload 0 4) ++ numSigned (clampTrim (signedByteAt q.payload 4)))
        { s with tbu := s.tbu.retrim (numAt q.payload 0 4) (signedByteAt q.payload 4) } :=
  if_neg h

/-- TIME TRIM at the head of the queue is served on the queue's rest. -/
theorem exec_timeTrim_head (h : headIs s q rest codeTimeTrim) :
    exec .timeTrim s = .next (serveTimeTrim q (taken rest s)) := by
  obtain ⟨hq, hc⟩ := h
  rw [exec_timeTrim, serve_head hq hc]
  rfl

end

/-- Settles O6, by the two branches of the period's range check. -/
theorem timeTrimStoresAndRestartsFrame : Obligations.TimeTrimStoresAndRestartsFrame := by
  intro s q rest hhead
  rw [exec_timeTrim_head hhead]
  refine ⟨fun hbad => ?_, fun hlow hhigh t ht => ?_⟩
  · rw [serveTimeTrim_range hbad]
    rfl
  · rw [serveTimeTrim_stored (by omega), ht, ← clampTrim_eq]
    rfl

end Sys2Proof.Machine
end

section
/-! Signal lanes and the power-state decoder: GLITCH and GLITCH CLEAR in either order (R22, R28), and the decode table
of DECODE LOAD (R36). -/

namespace Sys2Proof.Machine

open Sys2Proof.Claims

/-! ## GLITCH (R22) -/

theorem exec_glitch (i : Fin 16) (pin : Bool) (s : State) :
    exec (.glitch i pin) s = .next (laneGlitch i (setLanePin i pin s)) := rfl

/-- A lane back to STEADY with its glitch counted: what a glitch changes whether or not it is reported. -/
def countGlitch (i : Fin 16) (s : State) : State :=
  setLane i { s.stu.lanes[i] with filter := .steady, glitchCount := min 65535 (s.stu.lanes[i].glitchCount + 1) } s

section
variable {s : State} {i : Fin 16} {t0 : Stamp} {n : Nat}

/-- A sample back at the accepted level, before the reject width, makes a PENDING lane's glitch due. -/
theorem glitchDue_of_return {pin : Bool} (hm : s.stu.lanes[i].mode = .sense)
    (hf : s.stu.lanes[i].filter = .pending t0 n) (h1 : 1 ≤ n) (hn : n < s.stu.lanes[i].rejectClocks)
    (hp : logicalLevel s.stu.lanes[i].polarity pin = s.stu.lanes[i].accepted) :
    (setLanePin i pin s).glitchDue i = some (t0, n) := by
  have hd : (setLanePin i pin s).laneDiffers i = false := by
    rw [State.laneDiffers, setLanePin_stu, setLanePin_pins, put_get_self, hp, bne_self_eq_false]
  rw [State.glitchDue, setLanePin_stu, hm, hf]
  exact if_pos ⟨h1, hn, hd⟩

/-- The count of a lane plays no part in whether its glitch is due. -/
theorem glitchDue_of_glitchCount {t : State} {c : Nat} (hl : t.stu.lanes[i] = { s.stu.lanes[i] with glitchCount := c })
    (hp : t.pins = s.pins) : t.glitchDue i = s.glitchDue i := by
  simp only [State.glitchDue, State.laneDiffers, hl, hp]
  rfl

theorem laneGlitch_due (h : s.glitchDue i = some (t0, n)) :
    laneGlitch i s =
      if s.stu.lanes[i].glitches then produce (glitchRecord i t0 n) (countGlitch i s) else countGlitch i s := by
  rw [laneGlitch, h]
  rfl

/-- A glitch taken counts one, whether or not it is reported. -/
theorem laneGlitch_glitchCount (h : s.glitchDue i = some (t0, n)) :
    (laneGlitch i s).stu.lanes[i].glitchCount = min 65535 (s.stu.lanes[i].glitchCount + 1) := by
  rw [laneGlitch_due h]
  split <;> simp [countGlitch]

/-- A reported glitch's record meets the lane's holding FIFO. -/
theorem laneGlitch_hold (h : s.glitchDue i = some (t0, n)) (hg : s.stu.lanes[i].glitches = true) :
    (laneGlitch i s).hold[srcLane i] = s.hold[srcLane i].accept (glitchRecord i t0 n) := by
  rw [laneGlitch_due h, if_pos hg]
  exact put_get_self s.hold (srcLane i) _

/-- A glitch, due or not, leaves the ingress queue as it is. -/
theorem laneGlitch_ingress (i : Fin 16) (s : State) : (laneGlitch i s).slu.ingress = s.slu.ingress := by
  cases h : s.glitchDue i with
  | none => rw [laneGlitch, h]
  | some due =>
    rw [laneGlitch_due h]
    split
    · rw [produce_slu]
      split <;> rfl
    · rfl

end

/-! ## GLITCH CLEAR (R28) -/

theorem exec_glitchClear (s : State) : exec .glitchClear s = .next (serve codeGlitchClear serveGlitchClear s) := rfl

/-- The lanes after a GLITCH CLEAR with this payload. -/
def clearedLanes (p : List Byte) (lanes : Vector Lane 16) : Vector Lane 16 :=
  mapEach (fun i l => if (numAt p 0 2).testBit i.val then { l with glitchCount := 0 } else l) lanes

theorem clearedLanes_get (p : List Byte) (lanes : Vector Lane 16) (i : Fin 16) :
    (clearedLanes p lanes)[i] =
      if (numAt p 0 2).testBit i.val then { lanes[i] with glitchCount := 0 } else lanes[i] :=
  mapEach_get _ lanes i

section
variable {s : State} {q : Request} {rest : List Request}

/-- GLITCH CLEAR at the head of the queue: answered DONE, and nothing but the lanes' counts changes. -/
theorem exec_glitchClear_head (h : headIs s q rest codeGlitchClear) :
    exec .glitchClear s =
      .next (answered q.ticket .done []
        { taken rest s with stu := { s.stu with lanes := clearedLanes q.payload s.stu.lanes } }) := by
  obtain ⟨hq, hc⟩ := h
  rw [exec_glitchClear, serve_head hq hc]
  rfl

/-- The oldest request stays the oldest over a glitch. -/
theorem headIs_laneGlitch {code : Byte} (h : headIs s q rest code) (i : Fin 16) (pin : Bool) :
    headIs (laneGlitch i (setLanePin i pin s)) q rest code :=
  h.imp_left (laneGlitch_ingress i _).trans

section
variable {i : Fin 16} {pin : Bool} {t0 : Stamp} {n : Nat} {t u : State}

/-- The glitch first: the clear zeroes the count it raised, and leaves its record where it is. -/
theorem glitch_then_glitchClear (h : headIs s q rest codeGlitchClear)
    (hi : (numAt q.payload 0 2).testBit i.val = true) (hd : (setLanePin i pin s).glitchDue i = some (t0, n))
    (hg : exec (.glitch i pin) s = .next t) (hc : exec .glitchClear t = .next u) :
    u.stu.lanes[i].glitchCount = 0 ∧
      (s.stu.lanes[i].glitches = true → u.hold[srcLane i] = s.hold[srcLane i].accept (glitchRecord i t0 n)) := by
  obtain rfl := Host.Outcome.next.inj hg
  obtain rfl := Host.Outcome.next.inj ((exec_glitchClear_head (headIs_laneGlitch h i pin)).symm.trans hc)
  refine ⟨?_, fun hr => laneGlitch_hold hd hr⟩
  exact (congrArg Lane.glitchCount (clearedLanes_get ..)).trans (by rw [if_pos hi])

/-- The clear first: it leaves the glitch due, and the glitch then counts one from 0. -/
theorem glitchClear_then_glitch (h : headIs s q rest codeGlitchClear)
    (hi : (numAt q.payload 0 2).testBit i.val = true) (hd : (setLanePin i pin s).glitchDue i = some (t0, n))
    (hc : exec .glitchClear s = .next t) (hg : exec (.glitch i pin) t = .next u) :
    u.stu.lanes[i].glitchCount = 1 ∧
      (s.stu.lanes[i].glitches = true → u.hold[srcLane i] = s.hold[srcLane i].accept (glitchRecord i t0 n)) := by
  obtain ⟨hlane, hhold, hpins⟩ :
      t.stu.lanes[i] = { s.stu.lanes[i] with glitchCount := 0 } ∧ t.hold = s.hold ∧ t.pins = s.pins := by
    obtain rfl := Host.Outcome.next.inj ((exec_glitchClear_head h).symm.trans hc)
    exact ⟨(clearedLanes_get ..).trans (if_pos hi), rfl, rfl⟩
  have hdue : (setLanePin i pin t).glitchDue i = some (t0, n) := by
    rw [← hd]
    exact glitchDue_of_glitchCount hlane (by rw [setLanePin_pins, setLanePin_pins, hpins])
  obtain rfl := Host.Outcome.next.inj hg
  refine ⟨?_, fun hr => ?_⟩
  · rw [laneGlitch_glitchCount hdue, setLanePin_stu, hlane]
    rfl
  · rw [laneGlitch_hold hdue (by rw [setLanePin_stu, hlane, hr]), setLanePin_hold, hhold]

end

end

/-- Settles O12: the clear by its lanes, and either order by what the first of the two leaves for the second. -/
theorem glitchClearZeroesNamedLanes : Obligations.GlitchClearZeroesNamedLanes := by
  intro s q rest hhead
  refine ⟨⟨_, exec_glitchClear_head hhead, clearedLanes_get q.payload s.stu.lanes⟩, ?_⟩
  intro i pin t0 n t u hi hm hf h1 hn hp
  have hd : (setLanePin i pin s).glitchDue i = some (t0, n) := glitchDue_of_return hm hf h1 hn hp
  have glitchFirst := glitch_then_glitchClear (t := t) (u := u) hhead hi hd
  have clearFirst := glitchClear_then_glitch (t := t) (u := u) hhead hi hd
  refine ⟨fun ⟨hg, hc⟩ => (glitchFirst hg hc).1, fun ⟨hc, hg⟩ => (clearFirst hc hg).1, ?_⟩
  rintro (⟨hg, hc⟩ | ⟨hc, hg⟩) hr
  · exact (glitchFirst hg hc).2 hr
  · exact (clearFirst hc hg).2 hr

/-! ## The decode table of a payload (11.2) -/

theorem platformStateOf_eq_some {v : Nat} {x : PlatformState} : platformStateOf v = some x ↔ v = x.num := by
  constructor
  · intro h
    unfold platformStateOf at h
    split at h <;> cases h <;> rfl
  · rintro rfl
    cases x <;> rfl

theorem PlatformState.num_le (x : PlatformState) : x.num ≤ 4 := by cases x <;> decide

/-- The numbers 0 to 4 name the states. -/
theorem PlatformState.exists_num {v : Nat} (h : v ≤ 4) : ∃ x : PlatformState, x.num = v := by
  interval_cases v
  · exact ⟨.run, rfl⟩
  · exact ⟨.suspend, rfl⟩
  · exact ⟨.softoff, rfl⟩
  · exact ⟨.mechoff, rfl⟩
  · exact ⟨.illegal, rfl⟩

/-- The two bytes of a payload are those of an entry: its state's number and its set of predecessors. -/
def DecodeEntry.standsAt (e : DecodeEntry) (p : List Byte) (k : Nat) : Prop :=
  e.state.num = byteAt p (2 * k) ∧ e.allowed.toNat = byteAt p (2 * k + 1)

section
variable {p : List Byte} {k : Nat}

theorem decodeEntryAt_eq_some {e : DecodeEntry} : decodeEntryAt p k = some e ↔ e.standsAt p k := by
  obtain ⟨x, a⟩ := e
  simp only [decodeEntryAt, DecodeEntry.standsAt, Option.bind_eq_bind, Option.bind_eq_some_iff, platformStateOf_eq_some]
  constructor
  · rintro ⟨y, hy, h⟩
    split at h
    · cases h
    · next hlt =>
      obtain ⟨rfl, rfl⟩ := DecodeEntry.mk.inj (Option.some.inj h)
      exact ⟨hy.symm, Nat.mod_eq_of_lt (Nat.not_le.mp hlt)⟩
  · rintro ⟨hx, ha⟩
    refine ⟨x, hx.symm, ?_⟩
    rw [← ha, if_neg (Nat.not_le.mpr a.isLt), BitVec.ofNat_toNat, BitVec.setWidth_eq]
    rfl

/-- The bytes of an entry are in range. -/
theorem DecodeEntry.standsAt_range {e : DecodeEntry} (h : e.standsAt p k) :
    byteAt p (2 * k) ≤ 4 ∧ byteAt p (2 * k + 1) ≤ 31 := by
  obtain ⟨hs, ha⟩ := h
  rw [← hs, ← ha]
  exact ⟨e.state.num_le, by omega⟩

/-- Bytes in range are those of an entry. -/
theorem DecodeEntry.exists_standsAt (hs : byteAt p (2 * k) ≤ 4) (ha : byteAt p (2 * k + 1) ≤ 31) :
    ∃ e : DecodeEntry, e.standsAt p k := by
  obtain ⟨x, hx⟩ := PlatformState.exists_num hs
  exact ⟨⟨x, BitVec.ofNat 5 (byteAt p (2 * k + 1))⟩, hx, Nat.mod_eq_of_lt (by omega)⟩

/-- The table is read exactly where all eight entries are, each at its code. -/
theorem decodeTableAt_eq_some {table : Vector DecodeEntry 8} :
    decodeTableAt p = some table ↔ ∀ k : Fin 8, table[k].standsAt p k := by
  simp only [← decodeEntryAt_eq_some, decodeTableAt, Option.bind_eq_bind, Option.bind_eq_some_iff]
  constructor
  · rintro ⟨e0, h0, e1, h1, e2, h2, e3, h3, e4, h4, e5, h5, e6, h6, e7, h7, ht⟩ k
    obtain rfl := Option.some.inj ht
    fin_cases k <;> assumption
  · intro h
    refine ⟨_, h 0, _, h 1, _, h 2, _, h 3, _, h 4, _, h 5, _, h 6, _, h 7, congrArg some (vec_ext fun k => ?_)⟩
    fin_cases k <;> rfl

/-- An entry out of range makes the payload no table. -/
theorem decodeTableAt_outOfRange (hk : k < 8) (hbad : 5 ≤ byteAt p (2 * k) ∨ 32 ≤ byteAt p (2 * k + 1)) :
    decodeTableAt p = none := by
  cases h : decodeTableAt p with
  | none => rfl
  | some table =>
    have hrange : byteAt p (2 * k) ≤ 4 ∧ byteAt p (2 * k + 1) ≤ 31 :=
      DecodeEntry.standsAt_range (decodeTableAt_eq_some.mp h ⟨k, hk⟩)
    omega

/-- Eight entries in range are a table. -/
theorem exists_decodeTableAt (h : ∀ k < 8, byteAt p (2 * k) ≤ 4 ∧ byteAt p (2 * k + 1) ≤ 31) :
    ∃ table, decodeTableAt p = some table := by
  have hentry (k : Fin 8) : ∃ e : DecodeEntry, e.standsAt p k := by
    obtain ⟨hs, ha⟩ := h k k.isLt
    exact DecodeEntry.exists_standsAt hs ha
  choose entry hentry using hentry
  exact ⟨Vector.ofFn entry, decodeTableAt_eq_some.mpr fun k => by simpa using hentry k⟩

end

/-! ## DECODE LOAD (R36) -/

theorem exec_decodeLoad (s : State) : exec .decodeLoad s = .next (serve codeDecodeLoad serveDecodeLoad s) := rfl

section
variable {s : State} {q : Request} {rest : List Request} {table : Vector DecodeEntry 8}

theorem serveDecodeLoad_range (h : decodeTableAt q.payload = none) :
    serveDecodeLoad q s = answered q.ticket .range [] s := by
  rw [serveDecodeLoad, h]
  rfl

theorem serveDecodeLoad_enabled (h : decodeTableAt q.payload = some table) (he : s.stu.decoder.enabled = true) :
    serveDecodeLoad q s = answered q.ticket .state [] s := by
  rw [serveDecodeLoad, h]
  exact if_pos he

theorem serveDecodeLoad_stored (h : decodeTableAt q.payload = some table) (he : s.stu.decoder.enabled = false) :
    serveDecodeLoad q s =
      answered q.ticket .done [] { s with stu := { s.stu with decoder := { s.stu.decoder with table := table } } } := by
  rw [serveDecodeLoad, h]
  exact if_neg (by simp [he])

/-- While the decoder is enabled no payload changes the table. -/
theorem serveDecodeLoad_table_of_enabled (he : s.stu.decoder.enabled = true) :
    (serveDecodeLoad q s).stu.decoder.table = s.stu.decoder.table := by
  cases h : decodeTableAt q.payload with
  | none =>
    rw [serveDecodeLoad_range h]
    rfl
  | some table =>
    rw [serveDecodeLoad_enabled h he]
    rfl

/-- DECODE LOAD at the head of the queue is served on the queue's rest. -/
theorem exec_decodeLoad_head (h : headIs s q rest codeDecodeLoad) :
    exec .decodeLoad s = .next (serveDecodeLoad q (taken rest s)) := by
  obtain ⟨hq, hc⟩ := h
  rw [exec_decodeLoad, serve_head hq hc]
  rfl

end

/-- Settles O14, by whether the payload is a table and then by the decoder's enable. -/
theorem decodeLoadReplacesTheTable : Obligations.DecodeLoadReplacesTheTable := by
  intro s q rest hhead
  rw [exec_decodeLoad_head hhead]
  refine ⟨fun ⟨k, hk, hbad⟩ => ?_, fun hrange => ?_, fun hep hrun => ?_⟩
  · rw [serveDecodeLoad_range (decodeTableAt_outOfRange hk hbad)]
    rfl
  · obtain ⟨table, htable⟩ := exists_decodeTableAt hrange
    refine ⟨fun he => ?_, fun he => ⟨table, ?_, decodeTableAt_eq_some.mp htable⟩⟩
    · rw [serveDecodeLoad_enabled (s := taken rest s) htable he]
      rfl
    · rw [serveDecodeLoad_stored (s := taken rest s) htable he]
      rfl
  · exact ⟨_, rfl, serveDecodeLoad_table_of_enabled (s := taken rest s) (hep hrun)⟩

end Sys2Proof.Machine
end

section
/-! The Match Table's hit counts: HITS READ and HITS CLEAR (R98), and a count that is full (R84). -/

namespace Sys2Proof.Machine

open Sys2Proof.Claims

/-! ## A hit counted (R84) -/

/-- The deciding entry's count goes one up, and stops at 2^32−1. -/
theorem Cle.countHit_hits_self (u : Cle) (d : Option (Fin 64)) :
    (u.countHit d).hits[hitPlace d] = min (2 ^ 32 - 1) (u.hits[hitPlace d] + 1) :=
  put_get_self u.hits (hitPlace d) _

theorem Cle.countHit_full {u : Cle} {d : Option (Fin 64)} (h : u.hits[hitPlace d] = 2 ^ 32 - 1) :
    (u.countHit d).hits[hitPlace d] = 2 ^ 32 - 1 := by
  rw [Cle.countHit_hits_self, h]
  exact Nat.min_eq_left (Nat.le_succ _)

/-! ## HITS READ and HITS CLEAR (R98) -/

theorem exec_hitsRead (s : State) :
    exec .hitsRead s = .next (serve codeHitsRead (fun q t => done q t.cle.hitBytes t) s) := rfl

theorem exec_hitsClear (s : State) : exec .hitsClear s = .next (serve codeHitsClear serveHitsClear s) := rfl

section
variable {s : State} {q : Request} {rest : List Request}

/-- HITS READ at the head of the queue: answered DONE with the counts, and only the request leaves the queue. -/
theorem exec_hitsRead_head (h : headIs s q rest codeHitsRead) :
    exec .hitsRead s = .next (answered q.ticket .done s.cle.hitBytes (taken rest s)) := by
  obtain ⟨hq, hc⟩ := h
  rw [exec_hitsRead, serve_head hq hc]
  rfl

/-- HITS CLEAR at the head of the queue: answered DONE, and nothing but the counts changes. -/
theorem exec_hitsClear_head (h : headIs s q rest codeHitsClear) :
    exec .hitsClear s =
      .next (answered q.ticket .done []
        { taken rest s with cle := { s.cle with hits := Vector.replicate 65 0 } }) := by
  obtain ⟨hq, hc⟩ := h
  rw [exec_hitsClear, serve_head hq hc]
  rfl

end

/-- Settles O33: either request by what it does at the head of the queue, and a full count by the count's bound. -/
theorem hitsReadAndClear : Obligations.HitsReadAndClear :=
  fun _ _ _ => ⟨exec_hitsRead_head, exec_hitsClear_head, fun _ => Cle.countHit_full⟩

end Sys2Proof.Machine
end

section
/-! What a step can report: the holding FIFOs and the link's lists change by records placed, alerts set and requests
answered, and by nothing else, at every shared operation (1.2, 10.4, 10.6). -/

namespace Sys2Proof.Machine

set_option Elab.async false

open Sys2Proof.Claims

/-- From the holding FIFOs and the link of s one reaches h and u by placing records of A, setting alerts and answering
requests. -/
inductive Reports (A : Record → Prop) (s : State) : Vector Hold 33 → Slu → Prop
  | start : Reports A s s.hold s.slu
  | place {h : Vector Hold 33} {u : Slu} {r : Record} :
      A r → Reports A s h u → Reports A s (put h r.source ((h[r.source]'r.source.isLt).accept r)) u
  | alerts {h : Vector Hold 33} {u : Slu} (a : Vector Alert 16) (m : Nat) (d : Bool) :
      Reports A s h u → Reports A s h { u with alerts := a, mask := m, due := d }
  | answer {h : Vector Hold 33} {u : Slu} (t : Ticket) (st : Status) (p : List Byte) :
      Reports A s h u → Reports A s h (u.answer t st p)

/-- The state t is s but for parts that hold no record and no response, and for what has been reported since. -/
def Reported (A : Record → Prop) (s t : State) : Prop := Reports A s t.hold t.slu

/-- Every record of at most 16 body bytes is in A. -/
def TakesShortBodies (A : Record → Prop) : Prop := ∀ r : Record, r.bodyWithin → A r

/-- The records that closing an open transaction or text record can make are in A. -/
def TakesOpenRecords (A : Record → Prop) (s : State) : Prop :=
  (∀ g : Fin 2, ∀ o ∈ (s.btu.buses[g]'g.isLt).openRecord, ∀ r : Record, r.body = o.body → A r) ∧
    (∀ c : Fin 2, ∀ o ∈ (s.btu.consoles[c]'c.isLt).openRecord, ∀ r : Record, r.body.length ≤ o.bytes.length + 1 → A r)

theorem takesShortBodies_true : TakesShortBodies fun _ => True := fun _ _ => trivial

theorem takesOpenRecords_true (s : State) : TakesOpenRecords (fun _ => True) s :=
  ⟨fun _ _ _ _ _ => trivial, fun _ _ _ _ _ => trivial⟩

theorem takesShortBodies_within : TakesShortBodies Record.bodyWithin := fun _ h => h

theorem takesOpenRecords_within {s : State} (h : s.bodiesWithin) : TakesOpenRecords Record.bodyWithin s := by
  obtain ⟨-, -, hbus, htext⟩ := h
  refine ⟨fun g o ho r hr => ?_, fun c o ho r hr => ?_⟩
  · have := hbus g o ho
    simp only [Record.bodyWithin, hr]
    omega
  · have := htext c o ho
    simp only [Record.bodyWithin]
    omega

section
variable {A : Record → Prop} {s t u : State}

/-! ## What reporting keeps -/

@[simp] theorem Reported.refl : Reported A s s := .start

/-- What each placing keeps of the holding FIFOs, reporting keeps. -/
theorem Reported.hold_keeps {P : Vector Hold 33 → Prop} (h : Reported A s t)
    (hP : ∀ v r, A r → P v → P (put v r.source ((v[r.source]'r.source.isLt).accept r))) (hs : P s.hold) : P t.hold := by
  unfold Reported at h
  generalize t.hold = v, t.slu = u at h ⊢
  induction h with
  | start => exact hs
  | place hr _ ih => exact hP _ _ hr ih
  | alerts _ _ _ _ ih => exact ih
  | answer _ _ _ _ ih => exact ih

theorem Reported.ingress (h : Reported A s t) : t.slu.ingress = s.slu.ingress := by
  unfold Reported at h
  generalize t.hold = v, t.slu = u at h ⊢
  induction h with
  | start => rfl
  | place _ _ ih => exact ih
  | alerts _ _ _ _ ih => exact ih
  | answer _ _ _ _ ih => exact ih

theorem Reported.owed_length (h : Reported A s t) : t.slu.owed.length = s.slu.owed.length := by
  unfold Reported at h
  generalize t.hold = v, t.slu = u at h ⊢
  induction h with
  | start => rfl
  | place _ _ ih => exact ih
  | alerts _ _ _ _ ih => exact ih
  | answer _ _ _ _ ih => rw [Slu.answer_owed, List.length_map, ih]

/-! ## The updates that report -/

theorem Reported.produce {r : Record} (hr : A r) (h : Reported A s t) : Reported A s (produce r t) := by
  unfold Reported
  rw [produce_hold, produce_slu]
  split
  · exact .alerts _ _ _ (.place hr h)
  · exact .place hr h

@[simp] theorem reported_produce (hA : TakesShortBodies A) {r : Record} (hr : r.bodyWithin) (h : Reported A s t) :
    Reported A s (produce r t) := h.produce (hA r hr)

@[simp] theorem reported_setAlert {a : AlertSource} (h : Reported A s t) : Reported A s (setAlert a t) :=
  .alerts _ _ _ h

@[simp] theorem reported_respond {q : Ticket} {st : Status} {p : List Byte} (h : Reported A s t) :
    Reported A s (respond q st p t) := .answer q st p h

@[simp] theorem reported_respondTo {q : Option Ticket} {st : Status} {p : List Byte} (h : Reported A s t) :
    Reported A s (respondTo q st p t) := by
  cases q
  · exact h
  · exact reported_respond h

@[simp] theorem reported_done {q : Request} {p : List Byte} (h : Reported A s t) : Reported A s (done q p t) :=
  reported_respond h

@[simp] theorem reported_refuse {q : Request} {st : Status} (h : Reported A s t) : Reported A s (refuse q st t) :=
  reported_respond h

theorem reported_forEach {β : Type} {f : β → State → State} {l : List β}
    (hf : ∀ x v, Reported A s v → Reported A s (f x v)) (h : Reported A s t) : Reported A s (forEach l f t) :=
  forEach_keeps _ f l t (fun x _ v hv => hf x v hv) h

/-! ## The updates that report nothing -/

@[simp] theorem reported_update {pending clock free pins tbu stu rmu btu cle tsq cst sce dcu} :
    Reported A s ⟨pending, clock, free, pins, tbu, t.hold, stu, rmu, btu, cle, tsq, cst, sce, dcu, t.slu⟩ ↔
      Reported A s t := Iff.rfl

@[simp] theorem reported_setLine {d l} : Reported A s (setLine d l t) ↔ Reported A s t := Iff.rfl
@[simp] theorem reported_setPair {n p} : Reported A s (setPair n p t) ↔ Reported A s t := Iff.rfl
@[simp] theorem reported_setLane {i l} : Reported A s (setLane i l t) ↔ Reported A s t := Iff.rfl
@[simp] theorem reported_setDecoder {d} : Reported A s (setDecoder d t) ↔ Reported A s t := Iff.rfl
@[simp] theorem reported_setCheck {c} : Reported A s (setCheck c t) ↔ Reported A s t := Iff.rfl
@[simp] theorem reported_setChannel {c x} : Reported A s (setChannel c x t) ↔ Reported A s t := Iff.rfl
@[simp] theorem reported_setBus {g b} : Reported A s (setBus g b t) ↔ Reported A s t := Iff.rfl
@[simp] theorem reported_setConsole {r c} : Reported A s (setConsole r c t) ↔ Reported A s t := Iff.rfl
@[simp] theorem reported_setRing {i r} : Reported A s (setRing i r t) ↔ Reported A s t := Iff.rfl
@[simp] theorem reported_setLanePin {i x} : Reported A s (setLanePin i x t) ↔ Reported A s t := Iff.rfl
@[simp] theorem reported_setConPin {r x} : Reported A s (setConPin r x t) ↔ Reported A s t := Iff.rfl
@[simp] theorem reported_setEdgeRates {x y} : Reported A s (setEdgeRates x y t) ↔ Reported A s t := Iff.rfl
@[simp] theorem reported_completeMatch {c} : Reported A s (completeMatch c t) ↔ Reported A s t := Iff.rfl
@[simp] theorem reported_noticeActive {d m} : Reported A s (noticeActive d m t) ↔ Reported A s t := Iff.rfl
@[simp] theorem reported_sampleReturn {x y} : Reported A s (sampleReturn x y t) ↔ Reported A s t := Iff.rfl

@[simp] theorem reported_setBusPin {g l x} : Reported A s (setBusPin g l x t) ↔ Reported A s t := by
  cases l <;> exact Iff.rfl

/-! ## Bodies of the records made -/

@[simp] theorem newRecord_bodyWithin {c k v y} : (newRecord c k v y).bodyWithin := Nat.zero_le _

@[simp] theorem driveRecord_bodyWithin {k d a y w v} : (driveRecord k d a y w v).bodyWithin := Nat.zero_le _

@[simp] theorem driveStart_bodyWithin {d a w q v} : (driveStart d a w q v).bodyWithin := Nat.zero_le _

@[simp] theorem railRecord_bodyWithin {c k w j mv z b v} : (railRecord c k w j mv z b v).bodyWithin := Nat.zero_le _

@[simp] theorem edgeRecord_bodyWithin {i x v} : (edgeRecord i x v).bodyWithin := Nat.zero_le _

@[simp] theorem glitchRecord_bodyWithin {i v n} : (glitchRecord i v n).bodyWithin := Nat.zero_le _

@[simp] theorem stateRecord_bodyWithin {k o n c v} : (stateRecord k o n c v).bodyWithin := Nat.zero_le _

@[simp] theorem timeSetRecord_bodyWithin {v} : (timeSetRecord v).bodyWithin := Nat.zero_le _

@[simp] theorem scanStart_bodyWithin {o c v} : (scanStart o c v).bodyWithin := Nat.zero_le _

/-- A scan record carries 16 bytes of TDO at most. -/
@[simp] theorem scanRecord_bodyWithin {k c y l v} : (scanRecord k c y l v).bodyWithin := List.length_take_le ..

/-! ## Time base -/

@[simp] theorem reported_applyTimeSet (hA : TakesShortBodies A) {v q} (h : Reported A s t) :
    Reported A s (applyTimeSet v q t) :=
  reported_respond (reported_setAlert (reported_produce hA timeSetRecord_bodyWithin h))

@[simp] theorem reported_withdrawArmed {st} (h : Reported A s t) : Reported A s (withdrawArmed st t) := by
  unfold withdrawArmed
  split <;> simp [h]

@[simp] theorem reported_timeSetEdge (hA : TakesShortBodies A) {i x v} (h : Reported A s t) :
    Reported A s (timeSetEdge i x v t) := by
  fun_cases timeSetEdge <;> simp [hA, h]

/-! ## Rails and control lines -/

@[simp] theorem reported_endBlank (hA : TakesShortBodies A) {c} (h : Reported A s t) : Reported A s (endBlank c t) := by
  unfold endBlank
  dsimp only
  (repeat' split) <;> simp [hA, h]

@[simp] theorem reported_noticeCeased (hA : TakesShortBodies A) {d n} (h : Reported A s t) :
    Reported A s (noticeCeased d n t) := reported_forEach (fun _ _ => reported_endBlank hA) h

@[simp] theorem reported_moveLine (hA : TakesShortBodies A) {d st} (h : Reported A s t) :
    Reported A s (moveLine d st t) := by
  unfold moveLine
  dsimp only
  (repeat' split) <;> simp [hA, h]

@[simp] theorem reported_refuseLine (hA : TakesShortBodies A) {d r y} (h : Reported A s t) :
    Reported A s (refuseLine d r y t) := by
  simp [refuseLine, hA, h]

@[simp] theorem reported_assertLine (hA : TakesShortBodies A) {d r} (h : Reported A s t) :
    Reported A s (assertLine d r t) :=
  reported_respondTo (reported_moveLine hA (reported_produce hA driveRecord_bodyWithin h))

@[simp] theorem reported_deferOrAssert (hA : TakesShortBodies A) {d r} (h : Reported A s t) :
    Reported A s (deferOrAssert d r t) := by
  unfold deferOrAssert
  split <;> simp [hA, h]

@[simp] theorem reported_lineVerdict (hA : TakesShortBodies A) {x d} (h : Reported A s t) :
    Reported A s (lineVerdict x d t) := by
  unfold lineVerdict
  dsimp only
  (repeat' split) <;> simp [hA, h]

@[simp] theorem reported_deferralExpiry (hA : TakesShortBodies A) {d} (h : Reported A s t) :
    Reported A s (deferralExpiry d t) := by
  unfold deferralExpiry
  (repeat' split) <;> simp [hA, h]

@[simp] theorem reported_pressEnd (hA : TakesShortBodies A) {d} (h : Reported A s t) : Reported A s (pressEnd d t) := by
  fun_cases pressEnd <;> simp [hA, h]

@[simp] theorem reported_safeChange (hA : TakesShortBodies A) {d st} (h : Reported A s t) :
    Reported A s (safeChange d st t) := by
  simp [safeChange, hA, h]

@[simp] theorem reported_safeLine (hA : TakesShortBodies A) {d} (h : Reported A s t) : Reported A s (safeLine d t) := by
  unfold safeLine
  split <;> simp [hA, h]

@[simp] theorem reported_enterSafe (hA : TakesShortBodies A) (h : Reported A s t) : Reported A s (enterSafe t) := by
  unfold enterSafe
  split
  · exact h
  · exact reported_setAlert (reported_update.mpr (reported_forEach (fun _ _ => reported_safeLine hA) h))

@[simp] theorem reported_takeSafeRequest (hA : TakesShortBodies A) {q} (h : Reported A s t) :
    Reported A s (takeSafeRequest q t) := by
  fun_cases takeSafeRequest <;> simp [hA, h]

@[simp] theorem reported_safeVerdict (hA : TakesShortBodies A) {x} (h : Reported A s t) :
    Reported A s (safeVerdict x t) := by
  unfold safeVerdict
  dsimp only
  (repeat' split) <;> simp [hA, h]

@[simp] theorem reported_driveVerdict (hA : TakesShortBodies A) {x k} (h : Reported A s t) :
    Reported A s (driveVerdict x k t) := by
  unfold driveVerdict
  split <;> simp [hA, h]

@[simp] theorem reported_guardStep (hA : TakesShortBodies A) {d r} (h : Reported A s t) :
    Reported A s (guardStep d r t) := by
  simp [guardStep, hA, h]

@[simp] theorem reported_retrigger {d r} (h : Reported A s t) : Reported A s (retrigger d r t) := by
  simp [retrigger, h]

@[simp] theorem reported_takeInNormal (hA : TakesShortBodies A) {d r} (h : Reported A s t) :
    Reported A s (takeInNormal d r t) := by
  unfold takeInNormal
  split <;> simp [hA, h]

@[simp] theorem reported_takeLineRequest (hA : TakesShortBodies A) {d r} (h : Reported A s t) :
    Reported A s (takeLineRequest d r t) := by
  fun_cases takeLineRequest <;> simp [hA, h]

@[simp] theorem reported_sequencerPress (hA : TakesShortBodies A) {d w} (h : Reported A s t) :
    Reported A s (sequencerPress d w t) := reported_takeLineRequest hA h

@[simp] theorem reported_releaseActive (hA : TakesShortBodies A) {d} (h : Reported A s t) :
    Reported A s (releaseActive d t) := by
  simp [releaseActive, hA, h]

@[simp] theorem reported_releaseLine (hA : TakesShortBodies A) {d} (h : Reported A s t) :
    Reported A s (releaseLine d t) := by
  unfold releaseLine
  split <;> simp [hA, h]

/-! ## Rail conversions -/

@[simp] theorem reported_windowStage (hA : TakesShortBodies A) {c k} (h : Reported A s t) :
    Reported A s (windowStage c k t) := by
  unfold windowStage
  dsimp only
  split <;> simp [hA, h]

@[simp] theorem reported_tripStage (hA : TakesShortBodies A) {c k j} (h : Reported A s t) :
    Reported A s (tripStage c k j t) := by
  unfold tripStage
  dsimp only
  split <;> simp [hA, h]

@[simp] theorem reported_sampleStage (hA : TakesShortBodies A) {c k} (h : Reported A s t) :
    Reported A s (sampleStage c k t) := by
  fun_cases sampleStage <;> simp [hA, h]

@[simp] theorem reported_conversionEnd (hA : TakesShortBodies A) {x} (h : Reported A s t) :
    Reported A s (conversionEnd x t) := by
  unfold conversionEnd
  split
  · have hsteps {c k j v} (hv : Reported A s v) :
      Reported A s (sampleStage c k (tripStage c k j (windowStage c k v))) :=
      reported_sampleStage hA (reported_tripStage hA (reported_windowStage hA hv))
    simp only [conversionResult, protectStage, reported_update]
    split
    · exact reported_enterSafe hA (hsteps h)
    · exact hsteps h
  · exact h

/-! ## Scan engine -/

@[simp] theorem reported_concludeScan {o st l} (h : Reported A s t) : Reported A s (concludeScan o st l t) := by
  unfold concludeScan
  split <;> simp [h]

@[simp] theorem reported_failUndriven (hA : TakesShortBodies A) {o c f} (h : Reported A s t) :
    Reported A s (failUndriven o c f t) := by
  simp [failUndriven, hA, h]

@[simp] theorem reported_enterGuard (hA : TakesShortBodies A) {o c} (h : Reported A s t) :
    Reported A s (enterGuard o c t) := by
  simp [enterGuard, hA, h]

theorem reported_arbitrateFor (hA : TakesShortBodies A) {n} (h : Reported A s t) : Reported A s (arbitrateFor n t) := by
  induction n generalizing t with
  | zero => exact h
  | succ n ih =>
    unfold arbitrateFor
    split
    · split
      · exact h
      · dsimp only
        split
        · exact ih (reported_failUndriven hA h)
        · exact reported_enterGuard hA h
    · exact h

@[simp] theorem reported_arbitrate (hA : TakesShortBodies A) (h : Reported A s t) : Reported A s (arbitrate t) :=
  reported_arbitrateFor hA h

theorem reported_of_hold_slu (hh : u.hold = t.hold) (hs : u.slu = t.slu) (h : Reported A s t) : Reported A s u := by
  unfold Reported
  rwa [hh, hs]

@[simp] theorem reported_beginShift {r} (h : Reported A s t) : Reported A s (beginShift r t) :=
  reported_of_hold_slu (by simp) (by simp) h

@[simp] theorem reported_completeClock (h : Reported A s t) : Reported A s (completeClock t) :=
  reported_of_hold_slu (by simp) (by simp) h

@[simp] theorem reported_scanVerdict (hA : TakesShortBodies A) {x} (h : Reported A s t) :
    Reported A s (scanVerdict x t) := by
  fun_cases scanVerdict <;> simp [hA, h]

@[simp] theorem reported_flush (h : Reported A s t) : Reported A s (flush t) :=
  reported_forEach (f := fun (q : StationScan) t => respond q.ticket .aborted (resultBytes []) t)
    (fun _ _ => reported_respond) h

@[simp] theorem reported_endDriven (hA : TakesShortBodies A) {r x k y st} (h : Reported A s t) :
    Reported A s (endDriven r x k y st t) := by
  simp [endDriven, hA, h]

@[simp] theorem reported_scanFault (hA : TakesShortBodies A) {st y} (h : Reported A s t) :
    Reported A s (scanFault st y t) := by
  unfold scanFault
  split
  · exact reported_setAlert (reported_flush (reported_concludeScan (reported_produce hA scanRecord_bodyWithin h)))
  · exact h

@[simp] theorem reported_scanPowerEdge (hA : TakesShortBodies A) {i x} (h : Reported A s t) :
    Reported A s (scanPowerEdge i x t) := by
  fun_cases scanPowerEdge <;> simp [hA, h]

@[simp] theorem reported_scanComplete (hA : TakesShortBodies A) (h : Reported A s t) :
    Reported A s (scanComplete t) := by
  fun_cases scanComplete <;> simp [hA, h]

@[simp] theorem reported_abortPauseReached (hA : TakesShortBodies A) (h : Reported A s t) :
    Reported A s (abortPauseReached t) := by
  fun_cases abortPauseReached <;> simp [hA, h]

@[simp] theorem reported_returnClockTimeout (hA : TakesShortBodies A) (h : Reported A s t) :
    Reported A s (returnClockTimeout t) := by
  unfold returnClockTimeout
  split <;> simp [hA, h]

@[simp] theorem reported_tckClock {x y} (h : Reported A s t) : Reported A s (tckClock x y t) := by
  unfold tckClock
  dsimp only
  split <;> simp [h]

@[simp] theorem reported_injectScan (hA : TakesShortBodies A) {n} (h : Reported A s t) :
    Reported A s (injectScan n t) := by
  unfold injectScan
  dsimp only
  split <;> simp [hA, h]

/-! ## Lanes, the decoder and the clock check -/

@[simp] theorem reported_expireEpisode (hA : TakesShortBodies A) (h : Reported A s t) :
    Reported A s (expireEpisode t) := by
  have hstate {k o n c v d} : Reported A s (produce (stateRecord k o n c v) (setDecoder d t)) :=
    reported_produce hA stateRecord_bodyWithin h
  unfold expireEpisode
  dsimp only
  (repeat' split) <;> simp [hA, h, hstate]

@[simp] theorem reported_decoderEdge (hA : TakesShortBodies A) {i v} (h : Reported A s t) :
    Reported A s (decoderEdge i v t) := by
  unfold decoderEdge
  dsimp only
  (repeat' split) <;> simp [hA, h]

@[simp] theorem reported_acceptedChange (hA : TakesShortBodies A) {i x v e} (h : Reported A s t) :
    Reported A s (acceptedChange i x v e t) := by
  refine reported_scanPowerEdge hA (reported_decoderEdge hA ?_)
  split <;> simp [hA, h]

@[simp] theorem reported_acceptEdge (hA : TakesShortBodies A) {i v} (h : Reported A s t) :
    Reported A s (acceptEdge i v t) := by
  refine reported_acceptedChange hA ?_
  split <;> simp [hA, h]

@[simp] theorem reported_laneDeparture {i} (h : Reported A s t) : Reported A s (laneDeparture i t) := by
  unfold laneDeparture
  split <;> simp [h]

@[simp] theorem reported_laneAcceptance (hA : TakesShortBodies A) {i} (h : Reported A s t) :
    Reported A s (laneAcceptance i t) := by
  unfold laneAcceptance
  split <;> simp [hA, h]

@[simp] theorem reported_laneGlitch (hA : TakesShortBodies A) {i} (h : Reported A s t) :
    Reported A s (laneGlitch i t) := by
  unfold laneGlitch
  dsimp only
  (repeat' split) <;> simp [hA, h]

@[simp] theorem reported_laneBypass (hA : TakesShortBodies A) {i} (h : Reported A s t) :
    Reported A s (laneBypass i t) := by
  unfold laneBypass
  split <;> simp [hA, h]

@[simp] theorem reported_enableDecoder (hA : TakesShortBodies A) {c} (h : Reported A s t) :
    Reported A s (enableDecoder c t) := reported_produce hA (Nat.zero_le _) h

@[simp] theorem reported_clockCheckEnd (hA : TakesShortBodies A) (h : Reported A s t) :
    Reported A s (clockCheckEnd t) := by
  fun_cases clockCheckEnd <;> simp [hA, h]

/-! ## Buses and consoles -/

/-- A record that closes a transaction carries the bytes kept, or none. -/
theorem closingRecord_body (b : Bus) (g : Fin 2) (o : BusRecord) (x : Bool) :
    (b.closingRecord g o x).body = o.body ∨ (b.closingRecord g o x).body = [] := by
  simp only [Bus.closingRecord, Bus.errorRecord, busRecord]
  (repeat' split) <;> simp

@[simp] theorem reported_closeBus (hA : TakesShortBodies A) {g x}
    (ho : ∀ o ∈ (t.btu.buses[g]'g.isLt).openRecord, ∀ r : Record, r.body = o.body → A r) (h : Reported A s t) :
    Reported A s (closeBus g x t) := by
  unfold closeBus
  dsimp only
  split
  · next o hopen =>
    refine Reported.produce ?_ (reported_setBus.mpr h)
    rcases closingRecord_body (t.btu.buses[g]'g.isLt) g o x with hbody | hbody
    · exact ho o hopen _ hbody
    · exact hA _ (by rw [Record.bodyWithin, hbody]; exact Nat.zero_le _)
  · exact h

@[simp] theorem reported_busStart (hA : TakesShortBodies A) {g} (ho : TakesOpenRecords A t) (h : Reported A s t) :
    Reported A s (busStart g t) := by
  unfold busStart
  dsimp only
  (repeat' split)
  · exact reported_setBus.mpr (reported_closeBus hA (by simpa [Bus.acceptData] using ho.1 g) (reported_setBus.mpr h))
  all_goals exact h

@[simp] theorem reported_busStop (hA : TakesShortBodies A) {g} (ho : TakesOpenRecords A t) (h : Reported A s t) :
    Reported A s (busStop g t) := by
  unfold busStop
  dsimp only
  (repeat' split)
  · exact reported_setBus.mpr (reported_closeBus hA (by simpa [Bus.acceptData] using ho.1 g) (reported_setBus.mpr h))
  all_goals exact h

@[simp] theorem reported_busLineDeparture {g l} (h : Reported A s t) : Reported A s (busLineDeparture g l t) := by
  simp only [busLineDeparture, busDataLow]
  (repeat' split) <;> simp [h]

@[simp] theorem reported_bitTaken {g} (h : Reported A s t) : Reported A s (bitTaken g t) := by
  fun_cases bitTaken <;> simp [h]

@[simp] theorem reported_busByteEnd {g} (h : Reported A s t) : Reported A s (busByteEnd g t) := by
  unfold busByteEnd
  dsimp only
  split <;> simp [h]

@[simp] theorem reported_stuckEpisodeEnd {g} (h : Reported A s t) : Reported A s (stuckEpisodeEnd g t) := by
  unfold stuckEpisodeEnd
  dsimp only
  split <;> simp [h]

@[simp] theorem reported_stuckTimeout (hA : TakesShortBodies A) {g} (ho : TakesOpenRecords A t) (h : Reported A s t) :
    Reported A s (stuckTimeout g t) := by
  unfold stuckTimeout
  dsimp only
  split
  · split
    · next o hopen =>
      have herror : A ((t.btu.buses[g]'g.isLt).errorRecord g o) := ho.1 g o hopen _ rfl
      exact reported_setAlert (reported_produce hA newRecord_bodyWithin (.produce herror h))
    · simp [hA, h]
  · exact h

theorem reported_closeText {r} (ho : ∀ o ∈ (t.btu.consoles[r]'r.isLt).openRecord, A (textRecord r o))
    (h : Reported A s t) :
    Reported A s (closeText r t) := by
  unfold closeText
  dsimp only
  split
  · next o hopen => exact .produce (ho o hopen) (reported_setConsole.mpr h)
  · exact h

/-- A text record grows by a byte, or begins with one. -/
theorem appended_length (c : Console) (x : Byte) (f : Bool) :
    (c.openRecord = none ∧ (c.appended x f).bytes = [x]) ∨
      ∃ o, c.openRecord = some o ∧ (c.appended x f).bytes = o.bytes ++ [x] := by
  unfold Console.appended
  cases c.openRecord with
  | none => exact .inl ⟨rfl, rfl⟩
  | some o => exact .inr ⟨o, rfl, rfl⟩

theorem textRecord_appended_mem (hA : TakesShortBodies A) {r r' : Fin 2} (ho : TakesOpenRecords A t) (x : Byte)
    (f : Bool) : A (textRecord r' ((t.btu.consoles[r]'r.isLt).appended x f)) := by
  rcases appended_length (t.btu.consoles[r]'r.isLt) x f with ⟨-, hbytes⟩ | ⟨o, hopen, hbytes⟩
  · exact hA _ (by simp [Record.bodyWithin, textRecord, hbytes, -Fin.getElem_fin])
  · exact ho.2 r o hopen _ (by simp [textRecord, hbytes, -Fin.getElem_fin])

theorem textRecord_open_mem {r : Fin 2} (ho : TakesOpenRecords A t) :
    ∀ o ∈ (t.btu.consoles[r]'r.isLt).openRecord, A (textRecord r o) :=
  fun o hopen => ho.2 r o hopen _ (Nat.le_succ _)

theorem reported_addText {r x f} (ho : A (textRecord r ((t.btu.consoles[r]'r.isLt).appended x f)))
    (h : Reported A s t) :
    Reported A s (addText r x f t) := by
  unfold addText
  dsimp only
  split
  · exact reported_closeText (by simpa using ho) (reported_setConsole.mpr h)
  · exact reported_setConsole.mpr h

@[simp] theorem reported_sampleTick {r} (h : Reported A s t) : Reported A s (sampleTick r t) := by
  unfold sampleTick
  dsimp only
  split <;> simp [h]

@[simp] theorem reported_consoleByte (hA : TakesShortBodies A) {r} (ho : TakesOpenRecords A t) (h : Reported A s t) :
    Reported A s (consoleByte r t) := by
  unfold consoleByte
  dsimp only
  (repeat' split)
  · refine reported_addText ?_ (reported_setConsole.mpr h)
    have := textRecord_appended_mem hA (r := r) (r' := r) ho
    simpa [Console.appended, Console.ticked, -Fin.getElem_fin] using this _ _
  all_goals exact h

@[simp] theorem reported_consoleBreak (hA : TakesShortBodies A) {r} (ho : TakesOpenRecords A t) (h : Reported A s t) :
    Reported A s (consoleBreak r t) := by
  unfold consoleBreak
  dsimp only
  (repeat' split)
  · refine reported_produce hA newRecord_bodyWithin (reported_closeText ?_ (reported_setConsole.mpr h))
    simpa [Console.ticked] using textRecord_open_mem (r := r) ho
  all_goals exact h

@[simp] theorem reported_idleClose {r} (ho : TakesOpenRecords A t) (h : Reported A s t) :
    Reported A s (idleClose r t) := by
  unfold idleClose
  split
  · exact reported_closeText (textRecord_open_mem ho) h
  · exact h

/-! ## Table, sequencer and classification -/

@[simp] theorem reported_swapBanks (h : Reported A s t) : Reported A s (swapBanks t) := reported_setAlert h

@[simp] theorem reported_finishRun (h : Reported A s t) : Reported A s (finishRun t) := by
  unfold finishRun
  split <;> simp [h]

@[simp] theorem reported_triggerRun {v c} (h : Reported A s t) : Reported A s (triggerRun v c t) :=
  reported_finishRun (reported_setAlert h)

@[simp] theorem reported_frozenNotice {i} (h : Reported A s t) : Reported A s (frozenNotice i t) := by
  unfold frozenNotice
  dsimp only
  split <;> simp [h]

@[simp] theorem reported_branchAction (hA : TakesShortBodies A) {a} (h : Reported A s t) :
    Reported A s (branchAction a t) := by
  cases a <;> simp [branchAction, hA, h]

@[simp] theorem reported_takeBranch (hA : TakesShortBodies A) {b c v} (h : Reported A s t) :
    Reported A s (takeBranch b c v t) := by
  have hactions : Reported A s (forEach b.actions branchAction t) :=
    reported_forEach (fun _ _ => reported_branchAction hA) h
  unfold takeBranch
  dsimp only
  split <;> simp [hactions]

@[simp] theorem reported_compareClass (hA : TakesShortBodies A) {k v} (h : Reported A s t) :
    Reported A s (compareClass k v t) := by
  fun_cases compareClass <;> simp [hA, h]

@[simp] theorem reported_handleMatch (hA : TakesShortBodies A) {v c} (h : Reported A s t) :
    Reported A s (handleMatch v c t) := by
  unfold handleMatch
  dsimp only
  split <;> simp [hA, h]

@[simp] theorem reported_deliverClass (hA : TakesShortBodies A) {e v} (h : Reported A s t) :
    Reported A s (deliverClass e v t) := by
  unfold deliverClass
  split
  · exact reported_forEach (fun _ _ => reported_handleMatch hA) (reported_compareClass hA h)
  · exact h

@[simp] theorem reported_tick (hA : TakesShortBodies A) (h : Reported A s t) : Reported A s (tick t) := by
  unfold tick sequencerTick
  (repeat' split)
  · exact reported_forEach (fun _ _ => reported_handleMatch hA) h
  all_goals exact h

@[simp] theorem reported_offer {i r x} (h : Reported A s t) : Reported A s (offer i r x t) := by
  unfold offer
  dsimp only
  (repeat' split) <;> simp [h]

@[simp] theorem reported_offerStage {a r} (h : Reported A s t) : Reported A s (offerStage a r t) := by
  unfold offerStage
  split <;> simp [h]

@[simp] theorem reported_verdictStage (hA : TakesShortBodies A) {a r} (h : Reported A s t) :
    Reported A s (verdictStage a r t) := by
  unfold verdictStage
  split <;> simp [hA, h]

@[simp] theorem reported_alertStage {a} (h : Reported A s t) : Reported A s (alertStage a t) := by
  unfold alertStage
  split <;> simp [h]

@[simp] theorem reported_classStage (hA : TakesShortBodies A) {a r} (h : Reported A s t) :
    Reported A s (classStage a r t) := by
  unfold classStage
  split <;> simp [hA, h]

@[simp] theorem reported_onClassCommit {a} (h : Reported A s t) : Reported A s (onClassCommit a t) := by
  fun_cases onClassCommit <;> simp [h]

@[simp] theorem reported_classifyNext (hA : TakesShortBodies A) (h : Reported A s t) :
    Reported A s (classifyNext t) := by
  unfold classifyNext
  split
  · refine reported_onClassCommit (reported_classStage hA (reported_alertStage (reported_verdictStage hA
      (reported_offerStage (reported_update.mpr ?_)))))
    unfold nextRecordCommit
    split <;> simp [h]
  · exact h

end

end Sys2Proof.Machine
end

section
/-! What a command reports: but for the resets, admission and the link's own events a command changes the holding FIFOs
and the link's lists by reporting alone, a request row after taking its request (10.2). -/

namespace Sys2Proof.Machine

set_option Elab.async false

open Sys2Proof.Claims

section
variable {A : Record → Prop} {s t : State} {q : Request}

/-! ## Request handlers -/

theorem reported_serveAlertConfig (h : Reported A s t) : Reported A s (serveAlertConfig q t) := by
  unfold serveAlertConfig
  split
  · exact reported_refuse h
  · exact reported_done (.alerts _ _ _ h)

theorem reported_serveAlertClear (h : Reported A s t) : Reported A s (serveAlertClear q t) :=
  reported_done (.alerts _ _ _ h)

theorem reported_serveTimeTrim (h : Reported A s t) : Reported A s (serveTimeTrim q t) := by
  unfold serveTimeTrim
  dsimp only
  split <;> simp [h]

theorem reported_serveTimeSetImmediate (hA : TakesShortBodies A) (h : Reported A s t) :
    Reported A s (serveTimeSetImmediate q t) := by
  unfold serveTimeSetImmediate
  split <;> simp [hA, h]

theorem reported_serveTimeSetArmed (h : Reported A s t) : Reported A s (serveTimeSetArmed q t) := by
  unfold serveTimeSetArmed
  dsimp only
  (repeat' split)
  · exact reported_refuse h
  · exact reported_withdrawArmed h
  · exact reported_refuse h
  · exact reported_refuse h

theorem reported_serveTimeSetCancel (h : Reported A s t) : Reported A s (serveTimeSetCancel q t) := by
  fun_cases serveTimeSetCancel <;> simp [h]

theorem reported_serveLaneConfig (hA : TakesShortBodies A) (h : Reported A s t) :
    Reported A s (serveLaneConfig q t) := by
  unfold serveLaneConfig
  dsimp only
  split
  · exact reported_refuse h
  · split
    · exact reported_refuse h
    · refine reported_done ?_
      split <;> simp [hA, h]

theorem reported_serveGlitchClear (h : Reported A s t) : Reported A s (serveGlitchClear q t) := reported_done h

theorem reported_serveDecodeConfig (hA : TakesShortBodies A) (h : Reported A s t) :
    Reported A s (serveDecodeConfig q t) := by
  unfold serveDecodeConfig disableDecoder
  dsimp only
  (repeat' split) <;> simp [hA, h]

theorem reported_serveDecodeLoad (h : Reported A s t) : Reported A s (serveDecodeLoad q t) := by
  fun_cases serveDecodeLoad <;> simp [h]

theorem reported_serveClockCheck (h : Reported A s t) : Reported A s (serveClockCheck q t) := by
  unfold serveClockCheck
  dsimp only
  split <;> simp [h]

theorem reported_serveRailConfig (h : Reported A s t) : Reported A s (serveRailConfig q t) := by
  fun_cases serveRailConfig <;> simp [h]

theorem reported_serveTripClear (h : Reported A s t) : Reported A s (serveTripClear q t) := reported_done h

theorem reported_serveBusConfig (h : Reported A s t) : Reported A s (serveBusConfig q t) := by
  fun_cases serveBusConfig <;> simp [h]

theorem reported_serveBusStatus (h : Reported A s t) : Reported A s (serveBusStatus q t) := by
  unfold serveBusStatus
  split <;> simp [h]

theorem reported_serveConsoleConfig (ho : TakesOpenRecords A t) (h : Reported A s t) :
    Reported A s (serveConsoleConfig q t) := by
  unfold serveConsoleConfig
  dsimp only
  (repeat' split)
  · exact reported_refuse h
  · exact reported_done (reported_setConsole.mpr (reported_closeText (textRecord_open_mem ho) h))
  · exact reported_refuse h

theorem reported_serveConsoleStatus (h : Reported A s t) : Reported A s (serveConsoleStatus q t) := by
  unfold serveConsoleStatus
  split <;> simp [h]

theorem reported_serveEntryWrite (h : Reported A s t) : Reported A s (serveEntryWrite q t) := by
  fun_cases serveEntryWrite <;> simp [h]

theorem reported_serveDefaultWrite (h : Reported A s t) : Reported A s (serveDefaultWrite q t) := by
  fun_cases serveDefaultWrite <;> simp [h]

theorem reported_serveEntryWriteDirect (h : Reported A s t) : Reported A s (serveEntryWriteDirect q t) := by
  fun_cases serveEntryWriteDirect <;> simp [h]

theorem reported_serveDefaultWriteDirect (h : Reported A s t) : Reported A s (serveDefaultWriteDirect q t) := by
  fun_cases serveDefaultWriteDirect <;> simp [h]

theorem reported_serveEntryRead (h : Reported A s t) : Reported A s (serveEntryRead q t) := by
  unfold serveEntryRead
  split <;> simp [h]

theorem reported_serveCommit (h : Reported A s t) : Reported A s (serveCommit q t) := by
  unfold serveCommit
  dsimp only
  split
  · exact reported_refuse h
  · split
    · exact reported_refuse h
    · refine reported_done ?_
      split <;> simp [h]

theorem reported_serveCommitCancel (h : Reported A s t) : Reported A s (serveCommitCancel q t) := by
  unfold serveCommitCancel
  split <;> simp [h]

theorem reported_serveHitsClear (h : Reported A s t) : Reported A s (serveHitsClear q t) := reported_done h

theorem reported_serveArm (h : Reported A s t) : Reported A s (serveArm q t) := by
  unfold serveArm
  dsimp only
  split
  · refine reported_done (reported_update.mpr ?_)
    split <;> simp [h]
  · exact reported_refuse h

theorem reported_stopRun (h : Reported A s t) : Reported A s (stopRun t) := by
  unfold stopRun
  split <;> simp [h]

theorem reported_serveTriggerNow (h : Reported A s t) : Reported A s (serveTriggerNow q t) := by
  unfold serveTriggerNow
  split <;> simp [h]

theorem reported_serveLevelWrite (h : Reported A s t) : Reported A s (serveLevelWrite q t) := by
  fun_cases serveLevelWrite <;> simp [h]

theorem reported_serveLevelRead (h : Reported A s t) : Reported A s (serveLevelRead q t) := by
  unfold serveLevelRead
  split <;> simp [h]

theorem reported_serveCounterConfig (h : Reported A s t) : Reported A s (serveCounterConfig q t) := by
  fun_cases serveCounterConfig <;> simp [h]

theorem reported_serveCompareWrite (h : Reported A s t) : Reported A s (serveCompareWrite q t) := by
  fun_cases serveCompareWrite <;> simp [h]

theorem reported_serveRingConfig (h : Reported A s t) : Reported A s (serveRingConfig q t) := by
  fun_cases serveRingConfig <;> simp [h]

theorem reported_serveRingStart (h : Reported A s t) : Reported A s (serveRingStart q t) := by
  fun_cases serveRingStart <;> simp [h]

theorem reported_serveRingStop (h : Reported A s t) : Reported A s (serveRingStop q t) := by
  unfold serveRingStop
  dsimp only
  (repeat' split) <;> simp [h]

theorem reported_serveRingRead (h : Reported A s t) : Reported A s (serveRingRead q t) := by
  unfold serveRingRead
  dsimp only
  (repeat' split) <;> simp [h]

theorem reported_serveRingStatus (h : Reported A s t) : Reported A s (serveRingStatus q t) := by
  unfold serveRingStatus
  split <;> simp [h]

theorem reported_serveScanConfig (h : Reported A s t) : Reported A s (serveScanConfig q t) := by
  fun_cases serveScanConfig <;> simp [h]

theorem reported_serveScanSubmit (hA : TakesShortBodies A) (h : Reported A s t) :
    Reported A s (serveScanSubmit q t) := by
  fun_cases serveScanSubmit <;> simp [hA, h]

theorem reported_serveScanAbortBoundary (h : Reported A s t) : Reported A s (serveScanAbortBoundary q t) := by
  unfold serveScanAbortBoundary
  split <;> simp [h]

theorem reported_serveScanAbortImmediate (h : Reported A s t) : Reported A s (serveScanAbortImmediate q t) := by
  unfold serveScanAbortImmediate
  dsimp only
  split
  · exact reported_done (reported_flush h)
  · simp [h]

theorem reported_serveSlotLoad (h : Reported A s t) : Reported A s (serveSlotLoad q t) := by
  fun_cases serveSlotLoad <;> simp [h]

theorem reported_serveSlotRead (h : Reported A s t) : Reported A s (serveSlotRead q t) := by
  unfold serveSlotRead
  split <;> simp [h]

theorem reported_serveLineSetAssert (hA : TakesShortBodies A) (h : Reported A s t) :
    Reported A s (serveLineSetAssert q t) := by
  fun_cases serveLineSetAssert <;> simp [hA, h]

theorem reported_serveLineSetRelease (hA : TakesShortBodies A) (h : Reported A s t) :
    Reported A s (serveLineSetRelease q t) := by
  fun_cases serveLineSetRelease <;> simp [hA, h]

theorem reported_serveLinePress (hA : TakesShortBodies A) (h : Reported A s t) : Reported A s (serveLinePress q t) := by
  unfold serveLinePress
  split <;> simp [hA, h]

theorem reported_serveLineConfig (h : Reported A s t) : Reported A s (serveLineConfig q t) := by
  fun_cases serveLineConfig <;> simp [h]

theorem reported_servePairConfig (h : Reported A s t) : Reported A s (servePairConfig q t) := by
  fun_cases servePairConfig <;> simp [h]

theorem reported_servePairConfigClear (h : Reported A s t) : Reported A s (servePairConfigClear q t) := by
  fun_cases servePairConfigClear <;> simp [h]

theorem reported_setMode {m} (h : Reported A s t) : Reported A s (setMode m q t) := by
  unfold setMode
  split <;> simp [h]

theorem reported_serveModeSetNormal (h : Reported A s t) : Reported A s (serveModeSetNormal q t) := by
  unfold serveModeSetNormal
  split <;> simp [h, reported_setMode]

theorem reported_serveModeSetHold (h : Reported A s t) : Reported A s (serveModeSetHold q t) := by
  unfold serveModeSetHold
  split <;> simp [h, reported_setMode]

theorem reported_serveModeSetSafe (hA : TakesShortBodies A) (h : Reported A s t) :
    Reported A s (serveModeSetSafe q t) := by
  unfold serveModeSetSafe
  split <;> simp [hA, h]

/-! ## Commands -/

/-- A state reported from s, or from s with the oldest request of its ingress queue taken. -/
def ReportedServing (A : Record → Prop) (s t : State) : Prop :=
  Reported A s t ∨ ∃ q rest, s.slu.ingress = q :: rest ∧ Reported A (taken rest s) t

theorem reportedServing_serveWhen {code : Byte} {fits : List Byte → Bool} {handler : Request → State → State}
    (h : ∀ q rest, Reported A (taken rest s) (handler q (taken rest s))) :
    ReportedServing A s (serveWhen code fits handler s) := by
  rcases serveWhen_cases code fits handler s with e | ⟨q, rest, hq, -, -, e⟩
  · exact .inl (by rw [e]; exact .refl)
  · exact .inr ⟨q, rest, hq, by rw [e]; exact h q rest⟩

/-- A request row that only reads. -/
theorem reportedServing_read {code : Byte} {p : State → List Byte} :
    ReportedServing A s (serve code (fun q t => done q (p t) t) s) :=
  reportedServing_serveWhen fun _ _ => reported_done .refl

end

/-- The commands that do more to the holding FIFOs and the link than report: the resets, admission, and the arrival, the
choice and the end of a frame. -/
inductive ReshapesLink : Instr → Prop
  | powerOnReset {straps} : ReshapesLink (.powerOnReset straps)
  | softReset : ReshapesLink .softReset
  | admission : ReshapesLink .admission
  | frameArrival {f} : ReshapesLink (.frameArrival f)
  | linkEgress {b} : ReshapesLink (.linkEgress b)
  | frameSent : ReshapesLink .frameSent

/-- Every other command reports, a request row from the queue without the request it serves. -/
theorem exec_reported {A : Record → Prop} {c : Instr} {s t : State} (hA : TakesShortBodies A)
    (ho : TakesOpenRecords A s) (h : exec c s = .next t) (hc : ¬ ReshapesLink c) : ReportedServing A s t := by
  cases c
  case powerOnReset | softReset | admission | frameArrival | linkEgress | frameSent => exact absurd (by constructor) hc
  all_goals obtain rfl := Host.Outcome.next.inj h
  case memoryReady | linkDown => exact .inl .refl
  case tick => exact .inl (reported_tick hA .refl)
  case laneDeparture => exact .inl (reported_laneDeparture (reported_setLanePin.mpr .refl))
  case laneAcceptance => exact .inl (reported_laneAcceptance hA .refl)
  case glitch => exact .inl (reported_laneGlitch hA (reported_setLanePin.mpr .refl))
  case bypassAcceptedChange => exact .inl (reported_laneBypass hA (reported_setLanePin.mpr .refl))
  case episodeExpiry =>
    refine .inl ?_
    split
    · exact reported_expireEpisode hA .refl
    · exact .refl
  case clockCheckEnd => exact .inl (reported_clockCheckEnd hA (reported_setEdgeRates.mpr .refl))
  case conversionEnd => exact .inl (reported_conversionEnd hA .refl)
  case blankHoldExpiry => exact .inl (reported_endBlank hA .refl)
  case busStart => exact .inl (reported_busStart hA ho .refl)
  case busStop => exact .inl (reported_busStop hA ho .refl)
  case busByteEnd => exact .inl (reported_busByteEnd .refl)
  case stuckTimeout => exact .inl (reported_stuckTimeout hA ho .refl)
  case stuckEpisodeEnd => exact .inl (reported_stuckEpisodeEnd .refl)
  case consoleByte => exact .inl (reported_consoleByte hA ho (reported_setConPin.mpr .refl))
  case consoleBreak => exact .inl (reported_consoleBreak hA ho (reported_setConPin.mpr .refl))
  case idleClose => exact .inl (reported_idleClose ho .refl)
  case classifyRecord => exact .inl (reported_classifyNext hA .refl)
  case scanComplete => exact .inl (reported_scanComplete hA .refl)
  case returnClockTimeout => exact .inl (reported_returnClockTimeout hA .refl)
  case abortPauseReached => exact .inl (reported_abortPauseReached hA .refl)
  case pressEnd => exact .inl (reported_pressEnd hA .refl)
  case deferralExpiry => exact .inl (reported_deferralExpiry hA .refl)
  case sampleTick => exact .inl (reported_sampleTick (reported_setConPin.mpr .refl))
  case busLineDeparture => exact .inl (reported_busLineDeparture (reported_setBusPin.mpr .refl))
  case bitTaken => exact .inl (reported_bitTaken .refl)
  case tckClock => exact .inl (reported_tckClock .refl)
  case identify | alertNext | timeRead | laneStatus | decodeRead | railRead | hitsRead | tableStatus
      | sequencerStatus | scanStatus | lineStatus =>
    exact reportedServing_read
  all_goals refine reportedServing_serveWhen fun q rest => ?_
  case alertConfig => exact reported_serveAlertConfig .refl
  case alertClear => exact reported_serveAlertClear .refl
  case timeTrim => exact reported_serveTimeTrim .refl
  case timeSetImmediate => exact reported_serveTimeSetImmediate hA .refl
  case timeSetArmed => exact reported_serveTimeSetArmed .refl
  case timeSetCancel => exact reported_serveTimeSetCancel .refl
  case laneConfig => exact reported_serveLaneConfig hA .refl
  case glitchClear => exact reported_serveGlitchClear .refl
  case decodeConfig => exact reported_serveDecodeConfig hA .refl
  case decodeLoad => exact reported_serveDecodeLoad .refl
  case clockCheck => exact reported_serveClockCheck .refl
  case railConfig => exact reported_serveRailConfig .refl
  case tripClear => exact reported_serveTripClear .refl
  case busConfig => exact reported_serveBusConfig .refl
  case busStatus => exact reported_serveBusStatus .refl
  case consoleConfig => exact reported_serveConsoleConfig ho .refl
  case consoleStatus => exact reported_serveConsoleStatus .refl
  case entryWrite => exact reported_serveEntryWrite .refl
  case defaultWrite => exact reported_serveDefaultWrite .refl
  case entryWriteDirect => exact reported_serveEntryWriteDirect .refl
  case defaultWriteDirect => exact reported_serveDefaultWriteDirect .refl
  case entryRead => exact reported_serveEntryRead .refl
  case commit => exact reported_serveCommit .refl
  case commitCancel => exact reported_serveCommitCancel .refl
  case hitsClear => exact reported_serveHitsClear .refl
  case arm => exact reported_serveArm .refl
  case stop => exact reported_done (reported_stopRun .refl)
  case triggerNow => exact reported_serveTriggerNow .refl
  case levelWrite => exact reported_serveLevelWrite .refl
  case levelRead => exact reported_serveLevelRead .refl
  case counterConfig => exact reported_serveCounterConfig .refl
  case compareWrite => exact reported_serveCompareWrite .refl
  case ringConfig => exact reported_serveRingConfig .refl
  case ringStart => exact reported_serveRingStart .refl
  case ringStop => exact reported_serveRingStop .refl
  case ringRead => exact reported_serveRingRead .refl
  case ringStatus => exact reported_serveRingStatus .refl
  case scanConfig => exact reported_serveScanConfig .refl
  case scanSubmit => exact reported_serveScanSubmit hA .refl
  case scanAbortBoundary => exact reported_serveScanAbortBoundary .refl
  case scanAbortImmediate => exact reported_serveScanAbortImmediate .refl
  case slotLoad => exact reported_serveSlotLoad .refl
  case slotRead => exact reported_serveSlotRead .refl
  case lineSetAssert => exact reported_serveLineSetAssert hA .refl
  case lineSetRelease => exact reported_serveLineSetRelease hA .refl
  case linePress => exact reported_serveLinePress hA .refl
  case lineConfig => exact reported_serveLineConfig .refl
  case pairConfig => exact reported_servePairConfig .refl
  case pairConfigClear => exact reported_servePairConfigClear .refl
  case modeSetNormal => exact reported_serveModeSetNormal .refl
  case modeSetHold => exact reported_serveModeSetHold .refl
  case modeSetSafe => exact reported_serveModeSetSafe hA .refl

/-! ## Steps -/

/-- What holds of the state without its waiting commands, is kept by every command and by a core clock, every step
keeps. -/
theorem step_keeps {P : State → Prop} {s t : State} (hpending : ∀ u l, P u → P { u with pending := l })
    (hexec : ∀ c u v, P u → exec c u = .next v → P v) (hclock : ∀ u, P u → P (coreClock u)) (hs : P s)
    (h : step s = .next t) : P t := by
  unfold step at h
  split at h
  · exact hexec _ _ _ (hpending _ _ hs) h
  · split at h
    · exact hexec _ _ _ hs h
    · obtain rfl := Host.Outcome.next.inj h
      exact hclock _ hs

end Sys2Proof.Machine
end

section
/-! The machine's own obligations: which command a step runs, how a request row meets the ingress queue, and the reset
states (10.3, R201, R202). -/

namespace Sys2Proof.Machine

set_option Elab.async false

open Sys2Proof.Claims

/-! ## Steps -/

/-- Settles O1: a step is defined by the front of the queue. -/
theorem stepRunsTheFrontCommand : Obligations.StepRunsTheFrontCommand := by
  intro c rest s h
  simp only [step, h]

theorem step_due {s : State} {c : Instr} {l : List Instr} (hp : s.pending = []) (hd : dueEvents s = c :: l) :
    step s = exec c s := by
  simp only [step, hp, hd]

theorem step_clock {s : State} (hp : s.pending = []) (hd : dueEvents s = []) : step s = .next (coreClock s) := by
  simp only [step, hp, hd]

/-- Settles O2: on an empty queue the due events decide, and no command faults or refuses. -/
theorem emptyQueueTakesDueEventOrClock : Obligations.EmptyQueueTakesDueEventOrClock := by
  refine ⟨fun s hp => ⟨fun c l hd => step_due hp hd, fun hd => step_clock hp hd⟩, fun s => ?_⟩
  unfold goesOn step
  split
  · exact exec_goesOn _ _
  · split
    · exact exec_goesOn _ _
    · exact ⟨_, rfl⟩

/-! ## Request rows -/

/-- Every request row serves the oldest request if it has the row's code and suits the row. -/
theorem exec_row {c : Instr} {code : Byte} (h : requestCode c = some code) :
    ∃ fits handler, ∀ s, exec c s = .next (serveWhen code fits handler s) := by
  have hrow : requestCode c ≠ none := h ▸ nofun
  obtain rfl : (requestCode c).getD 0 = code := by rw [h]; rfl
  clear h
  cases c
  case powerOnReset | memoryReady | tick | laneDeparture | laneAcceptance | glitch | bypassAcceptedChange |
    episodeExpiry
    | clockCheckEnd | conversionEnd | blankHoldExpiry | busStart | busStop | busByteEnd | stuckTimeout | stuckEpisodeEnd
    | consoleByte | consoleBreak | idleClose | admission | classifyRecord | scanComplete | returnClockTimeout
    | abortPauseReached | pressEnd | deferralExpiry | frameArrival | linkEgress | linkDown | sampleTick
    | busLineDeparture | bitTaken | tckClock | frameSent => exact absurd rfl hrow
  all_goals exact ⟨_, _, fun _ => rfl⟩

theorem exec_row_other {c : Instr} {code : Byte} {s : State} (h : requestCode c = some code)
    (hq : ∀ q rest, s.slu.ingress = q :: rest → q.ticket.code ≠ code) : exec c s = .next s := by
  obtain ⟨fits, handler, hrow⟩ := exec_row h
  rw [hrow, serveWhen_other fun q rest e hm => hq q rest e hm.1]

/-- Of the request rows only SOFT RESET does more than report. -/
theorem not_reshapesLink_row {c : Instr} {code : Byte} (h : requestCode c = some code) (hc : c ≠ .softReset) :
    ¬ ReshapesLink c := by
  intro hr
  cases hr
  case softReset => exact hc rfl
  all_goals cases h

theorem ReportedServing.ingress {A : Record → Prop} {s t : State} (h : ReportedServing A s t) :
    t.slu.ingress = s.slu.ingress ∨ t.slu.ingress = s.slu.ingress.tail := by
  rcases h with h | ⟨q, rest, hq, h⟩
  · exact .inl h.ingress
  · exact .inr (by rw [h.ingress, hq]; rfl)

theorem exec_softReset_ingress (s : State) :
    ∃ t, exec .softReset s = .next t ∧ (t.slu.ingress = s.slu.ingress ∨ t.slu.ingress = []) := by
  refine ⟨_, rfl, serveWhen_keeps (P := fun t => t.slu.ingress = s.slu.ingress ∨ t.slu.ingress = []) (.inl rfl) ?_⟩
  intro q rest _ _ _
  exact .inr rfl

/-- Settles O3: a row of another code changes nothing; every row but SOFT RESET reports, which leaves the queue as it is
or without its head. -/
theorem requestsAreServedInArrivalOrder : Obligations.RequestsAreServedInArrivalOrder := by
  intro c code s h
  refine ⟨exec_row_other h, ?_⟩
  by_cases hc : c = .softReset
  · subst hc
    obtain ⟨t, ht, hi⟩ := exec_softReset_ingress s
    exact ⟨t, ht, hi.imp_right fun h => .inr ⟨rfl, h⟩⟩
  · obtain ⟨t, ht⟩ := exec_goesOn c s
    refine ⟨t, ht, ?_⟩
    have hr := exec_reported takesShortBodies_true (takesOpenRecords_true s) ht (not_reshapesLink_row h hc)
    exact hr.ingress.imp_right .inl

/-! ## Reset states -/

/-- Settles O54: the power-on state is the state of the blocks' resets, each array filled with one value. -/
theorem powerOnResetSetsEveryBlock : Obligations.PowerOnResetSetsEveryBlock := by
  intro straps s
  refine ⟨powerOn straps s, rfl, ?_⟩
  simp [powerOn, State.reset, Tbu.reset, Hold.reset, Stu.reset, Lane.reset, Decoder.reset, ClockCheck.reset, Rmu.reset,
    Channel.reset, Btu.reset, Bus.reset, Console.reset, Cle.reset, Bank.reset, Action.reset, Tsq.reset, Branch.reset,
    Counter.reset, Cst.reset, Ring.reset, Sce.reset, Dcu.reset, Slu.reset]

theorem reset_storesWithin : State.reset.storesWithin := by
  simp [State.storesWithin, State.countsWithin, Hold.within, State.reset, Hold.reset, Stu.reset, Lane.reset,
    ClockCheck.reset, Btu.reset, Bus.reset, Cle.reset, Cst.reset, Ring.reset, Sce.reset, Dcu.reset, Slu.reset]

theorem reset_interlocked : State.reset.dcu.interlocked := by
  simp [Dcu.interlocked, State.reset, Dcu.reset]

theorem reset_safeHeld : State.reset.dcu.safeHeld := by
  simp [Dcu.safeHeld, State.reset, Dcu.reset]

theorem reset_ringsSound : State.reset.cst.sound := by
  simp [Cst.sound, Ring.sound, Ring.placed, Ring.apart, Ring.occupancy, Ring.capacity, wordsOf, State.reset,
    Cst.reset, Ring.reset]

theorem reset_bodiesWithin : State.reset.bodiesWithin := by
  simp [State.bodiesWithin, State.reset, Hold.reset, Cle.reset, Btu.reset, Bus.reset, Console.reset]

theorem reset_answersOnce : State.reset.answersOnce := by
  simp [State.answersOnce, State.heldTickets, Slu.madeIds, State.reset, Slu.reset, Tbu.reset, Stu.reset,
    ClockCheck.reset, Sce.reset, Dcu.reset, Line.tickets, LineState.ticket]

theorem reset_holdersSingle : State.reset.holdersSingle := by
  simp [State.holdersSingle, State.reset, Sce.reset, Dcu.reset]

/-- Settles O60: every store is empty, every ring OFF, every line released, no pair formed and no request held. -/
theorem invariantsHoldAtReset : Obligations.InvariantsHoldAtReset :=
  ⟨reset_storesWithin, reset_interlocked, reset_safeHeld, reset_ringsSound, reset_bodiesWithin, reset_answersOnce,
    reset_holdersSingle⟩

end Sys2Proof.Machine
end

section
/-! Which parts of the state a shared operation, an event or a request handler leaves as they are: of the time base, the
Signal Timing Unit, the buses and consoles, the classifier, the Capture Store, the Scan Engine and the control lines. -/

namespace Sys2Proof.Machine

set_option Elab.async false

/-! ## Classification -/

@[simp] theorem nextRecordCommit_parts {s : State} :
    (nextRecordCommit s).stu = s.stu ∧ (nextRecordCommit s).btu = s.btu ∧ (nextRecordCommit s).cst = s.cst ∧
    (nextRecordCommit s).sce = s.sce ∧ (nextRecordCommit s).dcu = s.dcu := by
  fun_cases nextRecordCommit <;> exact ⟨rfl, rfl, rfl, rfl, rfl⟩

@[simp] theorem offerStage_parts {a r} {s : State} :
    (offerStage a r s).stu = s.stu ∧ (offerStage a r s).btu = s.btu ∧ (offerStage a r s).cle = s.cle ∧
    (offerStage a r s).sce = s.sce ∧ (offerStage a r s).dcu = s.dcu := by
  fun_cases offerStage <;> simp

@[simp] theorem verdictStage_parts {a r} {s : State} :
    (verdictStage a r s).stu = s.stu ∧ (verdictStage a r s).btu = s.btu ∧ (verdictStage a r s).cle = s.cle ∧
    (verdictStage a r s).cst = s.cst := by
  fun_cases verdictStage <;> simp

@[simp] theorem alertStage_parts {a} {s : State} :
    (alertStage a s).stu = s.stu ∧ (alertStage a s).btu = s.btu ∧ (alertStage a s).cle = s.cle ∧
    (alertStage a s).cst = s.cst ∧ (alertStage a s).sce = s.sce ∧ (alertStage a s).dcu = s.dcu := by
  fun_cases alertStage <;> exact ⟨rfl, rfl, rfl, rfl, rfl, rfl⟩

@[simp] theorem classStage_parts {a r} {s : State} :
    (classStage a r s).stu = s.stu ∧ (classStage a r s).btu = s.btu ∧ (classStage a r s).cle = s.cle := by
  fun_cases classStage <;> simp

@[simp] theorem onClassCommit_parts {a} {s : State} :
    (onClassCommit a s).stu = s.stu ∧ (onClassCommit a s).btu = s.btu ∧ (onClassCommit a s).cst = s.cst ∧
    (onClassCommit a s).sce = s.sce ∧ (onClassCommit a s).dcu = s.dcu := by
  fun_cases onClassCommit <;> exact ⟨rfl, rfl, rfl, rfl, rfl⟩

@[simp] theorem stopRun_parts {s : State} :
    (stopRun s).stu = s.stu ∧ (stopRun s).btu = s.btu ∧ (stopRun s).cle = s.cle ∧ (stopRun s).sce = s.sce ∧
    (stopRun s).dcu = s.dcu := by
  fun_cases stopRun <;> exact ⟨rfl, rfl, rfl, rfl, rfl⟩

/-! ## Lanes and the clock check -/

@[simp] theorem laneDeparture_parts {i} {s : State} :
    (laneDeparture i s).btu = s.btu ∧ (laneDeparture i s).cle = s.cle ∧ (laneDeparture i s).cst = s.cst ∧
    (laneDeparture i s).sce = s.sce ∧ (laneDeparture i s).dcu = s.dcu := by
  fun_cases laneDeparture <;> exact ⟨rfl, rfl, rfl, rfl, rfl⟩

@[simp] theorem laneAcceptance_parts {i} {s : State} :
    (laneAcceptance i s).btu = s.btu ∧ (laneAcceptance i s).cle = s.cle ∧ (laneAcceptance i s).dcu = s.dcu := by
  fun_cases laneAcceptance <;> simp

@[simp] theorem laneGlitch_parts {i} {s : State} :
    (laneGlitch i s).btu = s.btu ∧ (laneGlitch i s).cle = s.cle ∧ (laneGlitch i s).cst = s.cst ∧
    (laneGlitch i s).sce = s.sce ∧ (laneGlitch i s).dcu = s.dcu := by
  fun_cases laneGlitch <;> exact ⟨rfl, rfl, rfl, rfl, rfl⟩

@[simp] theorem laneBypass_parts {i} {s : State} :
    (laneBypass i s).btu = s.btu ∧ (laneBypass i s).cle = s.cle ∧ (laneBypass i s).dcu = s.dcu := by
  fun_cases laneBypass <;> simp

@[simp] theorem clockCheckEnd_parts {s : State} :
    (clockCheckEnd s).btu = s.btu ∧ (clockCheckEnd s).cle = s.cle ∧ (clockCheckEnd s).cst = s.cst ∧
    (clockCheckEnd s).sce = s.sce ∧ (clockCheckEnd s).dcu = s.dcu := by
  fun_cases clockCheckEnd <;> exact ⟨rfl, rfl, rfl, rfl, rfl⟩

/-! ## Rails -/

@[simp] theorem conversionEnd_parts {x} {s : State} :
    (conversionEnd x s).stu = s.stu ∧ (conversionEnd x s).btu = s.btu ∧ (conversionEnd x s).cle = s.cle ∧
    (conversionEnd x s).cst = s.cst ∧ (conversionEnd x s).sce = s.sce := by
  unfold conversionEnd
  dsimp only
  split <;> simp

/-! ## Buses and consoles -/

@[simp] theorem busStart_parts {g} {s : State} :
    (busStart g s).stu = s.stu ∧ (busStart g s).cle = s.cle ∧ (busStart g s).cst = s.cst ∧
    (busStart g s).sce = s.sce ∧ (busStart g s).dcu = s.dcu := by
  unfold busStart
  dsimp only
  (repeat' split) <;> simp

@[simp] theorem busStop_parts {g} {s : State} :
    (busStop g s).stu = s.stu ∧ (busStop g s).cle = s.cle ∧ (busStop g s).cst = s.cst ∧ (busStop g s).sce = s.sce ∧
    (busStop g s).dcu = s.dcu := by
  unfold busStop
  dsimp only
  (repeat' split) <;> simp

@[simp] theorem busByteEnd_parts {g} {s : State} :
    (busByteEnd g s).stu = s.stu ∧ (busByteEnd g s).cle = s.cle ∧ (busByteEnd g s).cst = s.cst ∧
    (busByteEnd g s).sce = s.sce ∧ (busByteEnd g s).dcu = s.dcu := by
  unfold busByteEnd
  dsimp only
  (repeat' split) <;> exact ⟨rfl, rfl, rfl, rfl, rfl⟩

@[simp] theorem stuckTimeout_parts {g} {s : State} :
    (stuckTimeout g s).stu = s.stu ∧ (stuckTimeout g s).cle = s.cle ∧ (stuckTimeout g s).cst = s.cst ∧
    (stuckTimeout g s).sce = s.sce ∧ (stuckTimeout g s).dcu = s.dcu := by
  unfold stuckTimeout
  dsimp only
  (repeat' split) <;> exact ⟨rfl, rfl, rfl, rfl, rfl⟩

@[simp] theorem stuckEpisodeEnd_parts {g} {s : State} :
    (stuckEpisodeEnd g s).stu = s.stu ∧ (stuckEpisodeEnd g s).cle = s.cle ∧ (stuckEpisodeEnd g s).cst = s.cst ∧
    (stuckEpisodeEnd g s).sce = s.sce ∧ (stuckEpisodeEnd g s).dcu = s.dcu := by
  unfold stuckEpisodeEnd
  dsimp only
  (repeat' split) <;> exact ⟨rfl, rfl, rfl, rfl, rfl⟩

@[simp] theorem busLineDeparture_parts {g l} {s : State} :
    (busLineDeparture g l s).stu = s.stu ∧ (busLineDeparture g l s).cle = s.cle ∧
    (busLineDeparture g l s).cst = s.cst ∧ (busLineDeparture g l s).sce = s.sce ∧
      (busLineDeparture g l s).dcu = s.dcu := by
  unfold busLineDeparture busDataLow
  dsimp only
  (repeat' split) <;> exact ⟨rfl, rfl, rfl, rfl, rfl⟩

@[simp] theorem bitTaken_parts {g} {s : State} :
    (bitTaken g s).stu = s.stu ∧ (bitTaken g s).cle = s.cle ∧ (bitTaken g s).cst = s.cst ∧
    (bitTaken g s).sce = s.sce ∧ (bitTaken g s).dcu = s.dcu := by
  fun_cases bitTaken <;> exact ⟨rfl, rfl, rfl, rfl, rfl⟩

@[simp] theorem consoleByte_parts {r} {s : State} :
    (consoleByte r s).stu = s.stu ∧ (consoleByte r s).cle = s.cle ∧ (consoleByte r s).cst = s.cst ∧
    (consoleByte r s).sce = s.sce ∧ (consoleByte r s).dcu = s.dcu := by
  fun_cases consoleByte <;> simp

@[simp] theorem consoleBreak_parts {r} {s : State} :
    (consoleBreak r s).stu = s.stu ∧ (consoleBreak r s).cle = s.cle ∧ (consoleBreak r s).cst = s.cst ∧
    (consoleBreak r s).sce = s.sce ∧ (consoleBreak r s).dcu = s.dcu := by
  fun_cases consoleBreak <;> simp

@[simp] theorem idleClose_parts {r} {s : State} :
    (idleClose r s).stu = s.stu ∧ (idleClose r s).cle = s.cle ∧ (idleClose r s).cst = s.cst ∧
    (idleClose r s).sce = s.sce ∧ (idleClose r s).dcu = s.dcu := by
  fun_cases idleClose <;> simp

@[simp] theorem sampleTick_parts {r} {s : State} :
    (sampleTick r s).stu = s.stu ∧ (sampleTick r s).cle = s.cle ∧ (sampleTick r s).cst = s.cst ∧
    (sampleTick r s).sce = s.sce ∧ (sampleTick r s).dcu = s.dcu := by
  fun_cases sampleTick <;> exact ⟨rfl, rfl, rfl, rfl, rfl⟩

/-! ## The tick and the scan engine -/

@[simp] theorem tick_parts {s : State} :
    (tick s).stu = s.stu ∧ (tick s).btu = s.btu ∧ (tick s).cle = s.cle := by
  fun_cases tick <;> simp

@[simp] theorem classifyNext_parts {s : State} :
    (classifyNext s).stu = s.stu ∧ (classifyNext s).btu = s.btu := by
  unfold classifyNext classify performActions
  dsimp only
  split <;> simp

@[simp] theorem scanComplete_parts {s : State} :
    (scanComplete s).stu = s.stu ∧ (scanComplete s).btu = s.btu ∧ (scanComplete s).cle = s.cle ∧
    (scanComplete s).cst = s.cst ∧ (scanComplete s).dcu = s.dcu := by
  fun_cases scanComplete <;> simp

@[simp] theorem returnClockTimeout_parts {s : State} :
    (returnClockTimeout s).stu = s.stu ∧ (returnClockTimeout s).btu = s.btu ∧ (returnClockTimeout s).cle = s.cle ∧
    (returnClockTimeout s).cst = s.cst ∧ (returnClockTimeout s).dcu = s.dcu := by
  fun_cases returnClockTimeout <;> simp

@[simp] theorem abortPauseReached_parts {s : State} :
    (abortPauseReached s).stu = s.stu ∧ (abortPauseReached s).btu = s.btu ∧ (abortPauseReached s).cle = s.cle ∧
    (abortPauseReached s).cst = s.cst ∧ (abortPauseReached s).dcu = s.dcu := by
  fun_cases abortPauseReached <;> simp

@[simp] theorem tckClock_parts {x y} {s : State} :
    (tckClock x y s).btu = s.btu ∧ (tckClock x y s).cle = s.cle ∧ (tckClock x y s).cst = s.cst ∧
    (tckClock x y s).dcu = s.dcu := by
  unfold tckClock
  dsimp only
  split_ifs <;> simp

/-! ## Control lines -/

@[simp] theorem pressEnd_parts {d} {s : State} :
    (pressEnd d s).stu = s.stu ∧ (pressEnd d s).btu = s.btu ∧ (pressEnd d s).cle = s.cle ∧
    (pressEnd d s).cst = s.cst ∧ (pressEnd d s).sce = s.sce := by
  fun_cases pressEnd <;> simp

@[simp] theorem deferralExpiry_parts {d} {s : State} :
    (deferralExpiry d s).stu = s.stu ∧ (deferralExpiry d s).btu = s.btu ∧ (deferralExpiry d s).cle = s.cle ∧
    (deferralExpiry d s).cst = s.cst ∧ (deferralExpiry d s).sce = s.sce := by
  fun_cases deferralExpiry <;> simp

/-! ## Admission and the link -/

@[simp] theorem frameArrival_parts {f} {s : State} :
    (frameArrival f s).stu = s.stu ∧ (frameArrival f s).btu = s.btu ∧ (frameArrival f s).cle = s.cle ∧
    (frameArrival f s).cst = s.cst ∧ (frameArrival f s).sce = s.sce ∧ (frameArrival f s).dcu = s.dcu := by
  unfold frameArrival checkHeader
  dsimp only
  (repeat' split) <;> exact ⟨rfl, rfl, rfl, rfl, rfl, rfl⟩

@[simp] theorem linkEgress_parts {b} {s : State} :
    (linkEgress b s).stu = s.stu ∧ (linkEgress b s).btu = s.btu ∧ (linkEgress b s).cle = s.cle ∧
    (linkEgress b s).sce = s.sce ∧ (linkEgress b s).dcu = s.dcu := by
  unfold linkEgress egress egressExport formExport
  dsimp only
  (repeat' split) <;> exact ⟨rfl, rfl, rfl, rfl, rfl⟩

@[simp] theorem frameSent_parts {s : State} :
    (frameSent s).stu = s.stu ∧ (frameSent s).btu = s.btu ∧ (frameSent s).cle = s.cle ∧ (frameSent s).cst = s.cst ∧
    (frameSent s).sce = s.sce ∧ (frameSent s).dcu = s.dcu := by
  fun_cases frameSent <;> exact ⟨rfl, rfl, rfl, rfl, rfl, rfl⟩

/-! ## Request handlers: link, time base and lanes -/

@[simp] theorem serveAlertConfig_parts {q} {s : State} :
    (serveAlertConfig q s).stu = s.stu ∧ (serveAlertConfig q s).btu = s.btu ∧ (serveAlertConfig q s).cle = s.cle ∧
    (serveAlertConfig q s).cst = s.cst ∧ (serveAlertConfig q s).sce = s.sce ∧ (serveAlertConfig q s).dcu = s.dcu := by
  fun_cases serveAlertConfig <;> exact ⟨rfl, rfl, rfl, rfl, rfl, rfl⟩

@[simp] theorem serveAlertClear_parts {q} {s : State} :
    (serveAlertClear q s).tbu = s.tbu ∧ (serveAlertClear q s).stu = s.stu ∧ (serveAlertClear q s).btu = s.btu ∧
    (serveAlertClear q s).cle = s.cle ∧ (serveAlertClear q s).cst = s.cst ∧ (serveAlertClear q s).sce = s.sce ∧
    (serveAlertClear q s).dcu = s.dcu := by
  unfold serveAlertClear
  dsimp only
  simp

@[simp] theorem serveTimeTrim_parts {q} {s : State} :
    (serveTimeTrim q s).stu = s.stu ∧ (serveTimeTrim q s).btu = s.btu ∧ (serveTimeTrim q s).cle = s.cle ∧
    (serveTimeTrim q s).cst = s.cst ∧ (serveTimeTrim q s).sce = s.sce ∧ (serveTimeTrim q s).dcu = s.dcu := by
  fun_cases serveTimeTrim <;> exact ⟨rfl, rfl, rfl, rfl, rfl, rfl⟩

@[simp] theorem serveTimeSetImmediate_parts {q} {s : State} :
    (serveTimeSetImmediate q s).stu = s.stu ∧ (serveTimeSetImmediate q s).btu = s.btu ∧
    (serveTimeSetImmediate q s).cle = s.cle ∧ (serveTimeSetImmediate q s).sce = s.sce ∧
    (serveTimeSetImmediate q s).dcu = s.dcu := by
  fun_cases serveTimeSetImmediate <;> simp

@[simp] theorem serveTimeSetArmed_parts {q} {s : State} :
    (serveTimeSetArmed q s).stu = s.stu ∧ (serveTimeSetArmed q s).btu = s.btu ∧ (serveTimeSetArmed q s).cle = s.cle ∧
    (serveTimeSetArmed q s).cst = s.cst ∧ (serveTimeSetArmed q s).sce = s.sce ∧
      (serveTimeSetArmed q s).dcu = s.dcu := by
  unfold serveTimeSetArmed
  dsimp only
  (repeat' split) <;> simp

@[simp] theorem serveTimeSetCancel_parts {q} {s : State} :
    (serveTimeSetCancel q s).stu = s.stu ∧ (serveTimeSetCancel q s).btu = s.btu ∧
    (serveTimeSetCancel q s).cle = s.cle ∧ (serveTimeSetCancel q s).cst = s.cst ∧
    (serveTimeSetCancel q s).sce = s.sce ∧ (serveTimeSetCancel q s).dcu = s.dcu := by
  fun_cases serveTimeSetCancel <;> simp

@[simp] theorem serveLaneConfig_parts {q} {s : State} :
    (serveLaneConfig q s).btu = s.btu ∧ (serveLaneConfig q s).cle = s.cle ∧ (serveLaneConfig q s).dcu = s.dcu := by
  unfold serveLaneConfig
  dsimp only
  (repeat' split) <;> simp

@[simp] theorem serveGlitchClear_parts {q} {s : State} :
    (serveGlitchClear q s).tbu = s.tbu ∧ (serveGlitchClear q s).btu = s.btu ∧ (serveGlitchClear q s).cle = s.cle ∧
    (serveGlitchClear q s).cst = s.cst ∧ (serveGlitchClear q s).sce = s.sce ∧
    (serveGlitchClear q s).dcu = s.dcu := by
  unfold serveGlitchClear
  dsimp only
  simp

@[simp] theorem serveDecodeConfig_parts {q} {s : State} :
    (serveDecodeConfig q s).btu = s.btu ∧ (serveDecodeConfig q s).cle = s.cle ∧ (serveDecodeConfig q s).cst = s.cst ∧
    (serveDecodeConfig q s).sce = s.sce ∧ (serveDecodeConfig q s).dcu = s.dcu := by
  unfold serveDecodeConfig disableDecoder enableDecoder
  dsimp only
  (repeat' split) <;> exact ⟨rfl, rfl, rfl, rfl, rfl⟩

@[simp] theorem serveDecodeLoad_parts {q} {s : State} :
    (serveDecodeLoad q s).btu = s.btu ∧ (serveDecodeLoad q s).cle = s.cle ∧ (serveDecodeLoad q s).cst = s.cst ∧
    (serveDecodeLoad q s).sce = s.sce ∧ (serveDecodeLoad q s).dcu = s.dcu := by
  fun_cases serveDecodeLoad <;> exact ⟨rfl, rfl, rfl, rfl, rfl⟩

@[simp] theorem serveClockCheck_parts {q} {s : State} :
    (serveClockCheck q s).btu = s.btu ∧ (serveClockCheck q s).cle = s.cle ∧ (serveClockCheck q s).cst = s.cst ∧
    (serveClockCheck q s).sce = s.sce ∧ (serveClockCheck q s).dcu = s.dcu := by
  unfold serveClockCheck
  dsimp only
  split <;> exact ⟨rfl, rfl, rfl, rfl, rfl⟩

/-! ## Request handlers: rails, buses and consoles -/

@[simp] theorem serveRailConfig_parts {q} {s : State} :
    (serveRailConfig q s).stu = s.stu ∧ (serveRailConfig q s).btu = s.btu ∧ (serveRailConfig q s).cle = s.cle ∧
    (serveRailConfig q s).cst = s.cst ∧ (serveRailConfig q s).sce = s.sce ∧ (serveRailConfig q s).dcu = s.dcu := by
  fun_cases serveRailConfig <;> exact ⟨rfl, rfl, rfl, rfl, rfl, rfl⟩

@[simp] theorem serveTripClear_parts {q} {s : State} :
    (serveTripClear q s).tbu = s.tbu ∧ (serveTripClear q s).stu = s.stu ∧ (serveTripClear q s).btu = s.btu ∧
    (serveTripClear q s).cle = s.cle ∧ (serveTripClear q s).cst = s.cst ∧ (serveTripClear q s).sce = s.sce ∧
    (serveTripClear q s).dcu = s.dcu := by
  unfold serveTripClear
  dsimp only
  simp

@[simp] theorem serveBusConfig_parts {q} {s : State} :
    (serveBusConfig q s).stu = s.stu ∧ (serveBusConfig q s).cle = s.cle ∧ (serveBusConfig q s).cst = s.cst ∧
    (serveBusConfig q s).sce = s.sce ∧ (serveBusConfig q s).dcu = s.dcu := by
  fun_cases serveBusConfig <;> exact ⟨rfl, rfl, rfl, rfl, rfl⟩

@[simp] theorem serveBusStatus_parts {q} {s : State} :
    (serveBusStatus q s).stu = s.stu ∧ (serveBusStatus q s).btu = s.btu ∧ (serveBusStatus q s).cle = s.cle ∧
    (serveBusStatus q s).cst = s.cst ∧ (serveBusStatus q s).sce = s.sce ∧ (serveBusStatus q s).dcu = s.dcu := by
  fun_cases serveBusStatus <;> exact ⟨rfl, rfl, rfl, rfl, rfl, rfl⟩

@[simp] theorem serveConsoleConfig_parts {q} {s : State} :
    (serveConsoleConfig q s).stu = s.stu ∧ (serveConsoleConfig q s).cle = s.cle ∧
    (serveConsoleConfig q s).cst = s.cst ∧ (serveConsoleConfig q s).sce = s.sce ∧
      (serveConsoleConfig q s).dcu = s.dcu := by
  unfold serveConsoleConfig
  dsimp only
  (repeat' split) <;> simp

@[simp] theorem serveConsoleStatus_parts {q} {s : State} :
    (serveConsoleStatus q s).stu = s.stu ∧ (serveConsoleStatus q s).btu = s.btu ∧
    (serveConsoleStatus q s).cle = s.cle ∧ (serveConsoleStatus q s).cst = s.cst ∧
    (serveConsoleStatus q s).sce = s.sce ∧ (serveConsoleStatus q s).dcu = s.dcu := by
  fun_cases serveConsoleStatus <;> exact ⟨rfl, rfl, rfl, rfl, rfl, rfl⟩

/-! ## Request handlers: table, sequencer and rings -/

@[simp] theorem serveEntryWrite_parts {q} {s : State} :
    (serveEntryWrite q s).stu = s.stu ∧ (serveEntryWrite q s).btu = s.btu ∧ (serveEntryWrite q s).cst = s.cst ∧
    (serveEntryWrite q s).sce = s.sce ∧ (serveEntryWrite q s).dcu = s.dcu := by
  fun_cases serveEntryWrite <;> exact ⟨rfl, rfl, rfl, rfl, rfl⟩

@[simp] theorem serveDefaultWrite_parts {q} {s : State} :
    (serveDefaultWrite q s).stu = s.stu ∧ (serveDefaultWrite q s).btu = s.btu ∧ (serveDefaultWrite q s).cst = s.cst ∧
    (serveDefaultWrite q s).sce = s.sce ∧ (serveDefaultWrite q s).dcu = s.dcu := by
  fun_cases serveDefaultWrite <;> exact ⟨rfl, rfl, rfl, rfl, rfl⟩

@[simp] theorem serveEntryWriteDirect_parts {q} {s : State} :
    (serveEntryWriteDirect q s).stu = s.stu ∧ (serveEntryWriteDirect q s).btu = s.btu ∧
    (serveEntryWriteDirect q s).cst = s.cst ∧ (serveEntryWriteDirect q s).sce = s.sce ∧
    (serveEntryWriteDirect q s).dcu = s.dcu := by
  fun_cases serveEntryWriteDirect <;> exact ⟨rfl, rfl, rfl, rfl, rfl⟩

@[simp] theorem serveDefaultWriteDirect_parts {q} {s : State} :
    (serveDefaultWriteDirect q s).stu = s.stu ∧ (serveDefaultWriteDirect q s).btu = s.btu ∧
    (serveDefaultWriteDirect q s).cst = s.cst ∧ (serveDefaultWriteDirect q s).sce = s.sce ∧
    (serveDefaultWriteDirect q s).dcu = s.dcu := by
  fun_cases serveDefaultWriteDirect <;> exact ⟨rfl, rfl, rfl, rfl, rfl⟩

@[simp] theorem serveEntryRead_parts {q} {s : State} :
    (serveEntryRead q s).stu = s.stu ∧ (serveEntryRead q s).btu = s.btu ∧ (serveEntryRead q s).cle = s.cle ∧
    (serveEntryRead q s).cst = s.cst ∧ (serveEntryRead q s).sce = s.sce ∧ (serveEntryRead q s).dcu = s.dcu := by
  fun_cases serveEntryRead <;> exact ⟨rfl, rfl, rfl, rfl, rfl, rfl⟩

@[simp] theorem serveCommit_parts {q} {s : State} :
    (serveCommit q s).stu = s.stu ∧ (serveCommit q s).btu = s.btu ∧ (serveCommit q s).cst = s.cst ∧
    (serveCommit q s).sce = s.sce ∧ (serveCommit q s).dcu = s.dcu := by
  unfold serveCommit
  dsimp only
  (repeat' split) <;> exact ⟨rfl, rfl, rfl, rfl, rfl⟩

@[simp] theorem serveCommitCancel_parts {q} {s : State} :
    (serveCommitCancel q s).stu = s.stu ∧ (serveCommitCancel q s).btu = s.btu ∧ (serveCommitCancel q s).cst = s.cst ∧
    (serveCommitCancel q s).sce = s.sce ∧ (serveCommitCancel q s).dcu = s.dcu := by
  unfold serveCommitCancel
  dsimp only
  (repeat' split) <;> exact ⟨rfl, rfl, rfl, rfl, rfl⟩

@[simp] theorem serveHitsClear_parts {q} {s : State} :
    (serveHitsClear q s).tbu = s.tbu ∧ (serveHitsClear q s).stu = s.stu ∧ (serveHitsClear q s).btu = s.btu ∧
    (serveHitsClear q s).cst = s.cst ∧ (serveHitsClear q s).sce = s.sce ∧ (serveHitsClear q s).dcu = s.dcu := by
  unfold serveHitsClear
  dsimp only
  simp

@[simp] theorem serveArm_parts {q} {s : State} :
    (serveArm q s).stu = s.stu ∧ (serveArm q s).btu = s.btu ∧ (serveArm q s).sce = s.sce ∧
      (serveArm q s).dcu = s.dcu := by
  unfold serveArm
  dsimp only
  split_ifs <;> exact ⟨rfl, rfl, rfl, rfl⟩

@[simp] theorem serveTriggerNow_parts {q} {s : State} :
    (serveTriggerNow q s).stu = s.stu ∧ (serveTriggerNow q s).btu = s.btu ∧ (serveTriggerNow q s).cle = s.cle ∧
    (serveTriggerNow q s).sce = s.sce ∧ (serveTriggerNow q s).dcu = s.dcu := by
  unfold serveTriggerNow
  split_ifs <;> simp

@[simp] theorem serveLevelWrite_parts {q} {s : State} :
    (serveLevelWrite q s).stu = s.stu ∧ (serveLevelWrite q s).btu = s.btu ∧ (serveLevelWrite q s).cle = s.cle ∧
    (serveLevelWrite q s).cst = s.cst ∧ (serveLevelWrite q s).sce = s.sce ∧ (serveLevelWrite q s).dcu = s.dcu := by
  fun_cases serveLevelWrite <;> exact ⟨rfl, rfl, rfl, rfl, rfl, rfl⟩

@[simp] theorem serveLevelRead_parts {q} {s : State} :
    (serveLevelRead q s).stu = s.stu ∧ (serveLevelRead q s).btu = s.btu ∧ (serveLevelRead q s).cle = s.cle ∧
    (serveLevelRead q s).cst = s.cst ∧ (serveLevelRead q s).sce = s.sce ∧ (serveLevelRead q s).dcu = s.dcu := by
  fun_cases serveLevelRead <;> exact ⟨rfl, rfl, rfl, rfl, rfl, rfl⟩

@[simp] theorem serveCounterConfig_parts {q} {s : State} :
    (serveCounterConfig q s).stu = s.stu ∧ (serveCounterConfig q s).btu = s.btu ∧
    (serveCounterConfig q s).cle = s.cle ∧ (serveCounterConfig q s).cst = s.cst ∧
    (serveCounterConfig q s).sce = s.sce ∧ (serveCounterConfig q s).dcu = s.dcu := by
  fun_cases serveCounterConfig <;> exact ⟨rfl, rfl, rfl, rfl, rfl, rfl⟩

@[simp] theorem serveCompareWrite_parts {q} {s : State} :
    (serveCompareWrite q s).stu = s.stu ∧ (serveCompareWrite q s).btu = s.btu ∧ (serveCompareWrite q s).cle = s.cle ∧
    (serveCompareWrite q s).cst = s.cst ∧ (serveCompareWrite q s).sce = s.sce ∧
      (serveCompareWrite q s).dcu = s.dcu := by
  fun_cases serveCompareWrite <;> exact ⟨rfl, rfl, rfl, rfl, rfl, rfl⟩

@[simp] theorem serveRingConfig_parts {q} {s : State} :
    (serveRingConfig q s).stu = s.stu ∧ (serveRingConfig q s).btu = s.btu ∧ (serveRingConfig q s).cle = s.cle ∧
    (serveRingConfig q s).sce = s.sce ∧ (serveRingConfig q s).dcu = s.dcu := by
  fun_cases serveRingConfig <;> exact ⟨rfl, rfl, rfl, rfl, rfl⟩

@[simp] theorem serveRingStart_parts {q} {s : State} :
    (serveRingStart q s).stu = s.stu ∧ (serveRingStart q s).btu = s.btu ∧ (serveRingStart q s).cle = s.cle ∧
    (serveRingStart q s).sce = s.sce ∧ (serveRingStart q s).dcu = s.dcu := by
  fun_cases serveRingStart <;> exact ⟨rfl, rfl, rfl, rfl, rfl⟩

@[simp] theorem serveRingStop_parts {q} {s : State} :
    (serveRingStop q s).stu = s.stu ∧ (serveRingStop q s).btu = s.btu ∧ (serveRingStop q s).cle = s.cle ∧
    (serveRingStop q s).sce = s.sce ∧ (serveRingStop q s).dcu = s.dcu := by
  unfold serveRingStop
  dsimp only
  (repeat' split) <;> exact ⟨rfl, rfl, rfl, rfl, rfl⟩

@[simp] theorem serveRingRead_parts {q} {s : State} :
    (serveRingRead q s).stu = s.stu ∧ (serveRingRead q s).btu = s.btu ∧ (serveRingRead q s).cle = s.cle ∧
    (serveRingRead q s).cst = s.cst ∧ (serveRingRead q s).sce = s.sce ∧ (serveRingRead q s).dcu = s.dcu := by
  unfold serveRingRead
  dsimp only
  (repeat' split) <;> exact ⟨rfl, rfl, rfl, rfl, rfl, rfl⟩

@[simp] theorem serveRingStatus_parts {q} {s : State} :
    (serveRingStatus q s).stu = s.stu ∧ (serveRingStatus q s).btu = s.btu ∧ (serveRingStatus q s).cle = s.cle ∧
    (serveRingStatus q s).cst = s.cst ∧ (serveRingStatus q s).sce = s.sce ∧ (serveRingStatus q s).dcu = s.dcu := by
  fun_cases serveRingStatus <;> exact ⟨rfl, rfl, rfl, rfl, rfl, rfl⟩

/-! ## Request handlers: scans and control lines -/

@[simp] theorem serveScanConfig_parts {q} {s : State} :
    (serveScanConfig q s).stu = s.stu ∧ (serveScanConfig q s).btu = s.btu ∧ (serveScanConfig q s).cle = s.cle ∧
    (serveScanConfig q s).cst = s.cst ∧ (serveScanConfig q s).dcu = s.dcu := by
  fun_cases serveScanConfig <;> exact ⟨rfl, rfl, rfl, rfl, rfl⟩

@[simp] theorem serveScanSubmit_parts {q} {s : State} :
    (serveScanSubmit q s).stu = s.stu ∧ (serveScanSubmit q s).btu = s.btu ∧ (serveScanSubmit q s).cle = s.cle ∧
    (serveScanSubmit q s).cst = s.cst ∧ (serveScanSubmit q s).dcu = s.dcu := by
  fun_cases serveScanSubmit <;> simp

@[simp] theorem serveScanAbortBoundary_parts {q} {s : State} :
    (serveScanAbortBoundary q s).stu = s.stu ∧ (serveScanAbortBoundary q s).btu = s.btu ∧
    (serveScanAbortBoundary q s).cle = s.cle ∧ (serveScanAbortBoundary q s).cst = s.cst ∧
    (serveScanAbortBoundary q s).dcu = s.dcu := by
  fun_cases serveScanAbortBoundary <;> simp

@[simp] theorem serveScanAbortImmediate_parts {q} {s : State} :
    (serveScanAbortImmediate q s).stu = s.stu ∧ (serveScanAbortImmediate q s).btu = s.btu ∧
    (serveScanAbortImmediate q s).cle = s.cle ∧ (serveScanAbortImmediate q s).cst = s.cst ∧
    (serveScanAbortImmediate q s).dcu = s.dcu := by
  unfold serveScanAbortImmediate
  dsimp only
  (repeat' split) <;> simp

@[simp] theorem serveSlotLoad_parts {q} {s : State} :
    (serveSlotLoad q s).stu = s.stu ∧ (serveSlotLoad q s).btu = s.btu ∧ (serveSlotLoad q s).cle = s.cle ∧
    (serveSlotLoad q s).cst = s.cst ∧ (serveSlotLoad q s).dcu = s.dcu := by
  unfold serveSlotLoad
  dsimp only
  (repeat' split) <;> exact ⟨rfl, rfl, rfl, rfl, rfl⟩

@[simp] theorem serveSlotRead_parts {q} {s : State} :
    (serveSlotRead q s).stu = s.stu ∧ (serveSlotRead q s).btu = s.btu ∧ (serveSlotRead q s).cle = s.cle ∧
    (serveSlotRead q s).cst = s.cst ∧ (serveSlotRead q s).sce = s.sce ∧ (serveSlotRead q s).dcu = s.dcu := by
  fun_cases serveSlotRead <;> exact ⟨rfl, rfl, rfl, rfl, rfl, rfl⟩

@[simp] theorem serveLineSetAssert_parts {q} {s : State} :
    (serveLineSetAssert q s).stu = s.stu ∧ (serveLineSetAssert q s).btu = s.btu ∧
    (serveLineSetAssert q s).cle = s.cle ∧ (serveLineSetAssert q s).cst = s.cst ∧
      (serveLineSetAssert q s).sce = s.sce := by
  fun_cases serveLineSetAssert <;> simp

@[simp] theorem serveLineSetRelease_parts {q} {s : State} :
    (serveLineSetRelease q s).stu = s.stu ∧ (serveLineSetRelease q s).btu = s.btu ∧
    (serveLineSetRelease q s).cle = s.cle ∧ (serveLineSetRelease q s).cst = s.cst ∧
    (serveLineSetRelease q s).sce = s.sce := by
  fun_cases serveLineSetRelease <;> simp

@[simp] theorem serveLinePress_parts {q} {s : State} :
    (serveLinePress q s).stu = s.stu ∧ (serveLinePress q s).btu = s.btu ∧ (serveLinePress q s).cle = s.cle ∧
    (serveLinePress q s).cst = s.cst ∧ (serveLinePress q s).sce = s.sce := by
  fun_cases serveLinePress <;> simp

@[simp] theorem serveLineConfig_parts {q} {s : State} :
    (serveLineConfig q s).stu = s.stu ∧ (serveLineConfig q s).btu = s.btu ∧ (serveLineConfig q s).cle = s.cle ∧
    (serveLineConfig q s).cst = s.cst ∧ (serveLineConfig q s).sce = s.sce := by
  fun_cases serveLineConfig <;> exact ⟨rfl, rfl, rfl, rfl, rfl⟩

@[simp] theorem servePairConfig_parts {q} {s : State} :
    (servePairConfig q s).stu = s.stu ∧ (servePairConfig q s).btu = s.btu ∧ (servePairConfig q s).cle = s.cle ∧
    (servePairConfig q s).cst = s.cst ∧ (servePairConfig q s).sce = s.sce := by
  fun_cases servePairConfig <;> exact ⟨rfl, rfl, rfl, rfl, rfl⟩

@[simp] theorem servePairConfigClear_parts {q} {s : State} :
    (servePairConfigClear q s).stu = s.stu ∧ (servePairConfigClear q s).btu = s.btu ∧
    (servePairConfigClear q s).cle = s.cle ∧ (servePairConfigClear q s).cst = s.cst ∧
    (servePairConfigClear q s).sce = s.sce := by
  fun_cases servePairConfigClear <;> exact ⟨rfl, rfl, rfl, rfl, rfl⟩

@[simp] theorem setMode_parts {m q} {s : State} :
    (setMode m q s).stu = s.stu ∧ (setMode m q s).btu = s.btu ∧ (setMode m q s).cle = s.cle ∧
    (setMode m q s).cst = s.cst ∧ (setMode m q s).sce = s.sce := by
  fun_cases setMode <;> exact ⟨rfl, rfl, rfl, rfl, rfl⟩

@[simp] theorem serveModeSetNormal_parts {q} {s : State} :
    (serveModeSetNormal q s).stu = s.stu ∧ (serveModeSetNormal q s).btu = s.btu ∧
    (serveModeSetNormal q s).cle = s.cle ∧ (serveModeSetNormal q s).cst = s.cst ∧
      (serveModeSetNormal q s).sce = s.sce := by
  fun_cases serveModeSetNormal <;> simp

@[simp] theorem serveModeSetHold_parts {q} {s : State} :
    (serveModeSetHold q s).stu = s.stu ∧ (serveModeSetHold q s).btu = s.btu ∧ (serveModeSetHold q s).cle = s.cle ∧
    (serveModeSetHold q s).cst = s.cst ∧ (serveModeSetHold q s).sce = s.sce := by
  fun_cases serveModeSetHold <;> simp

@[simp] theorem serveModeSetSafe_parts {q} {s : State} :
    (serveModeSetSafe q s).stu = s.stu ∧ (serveModeSetSafe q s).btu = s.btu ∧ (serveModeSetSafe q s).cle = s.cle ∧
    (serveModeSetSafe q s).cst = s.cst ∧ (serveModeSetSafe q s).sce = s.sce := by
  fun_cases serveModeSetSafe <;> simp

end Sys2Proof.Machine
end

section
/-! Which commands can change a part of the state: of the time base, the Signal Timing Unit, the buses and consoles, the
classifier, the Capture Store, the Scan Engine and the control lines. -/

namespace Sys2Proof.Machine

set_option Elab.async false

/-- What holds of the state a command ends in, its run being known. -/
theorem next_keeps {P : State → Prop} {u t : State} (h : (.next u : Host.Outcome State Fault Refusal) = .next t)
    (hu : P u) : P t := Host.Outcome.next.inj h ▸ hu

theorem next_serveWhen {α : Type} {f : State → α} {code fits handler} {s t : State}
    (h : (.next (serveWhen code fits handler s) : Host.Outcome State Fault Refusal) = .next t)
    (htaken : ∀ rest, f { s with slu := { s.slu with ingress := rest } } = f s)
    (hserve : ∀ q u, f (handler q u) = f u) : f t = f s :=
  next_keeps (P := (f · = f s)) h (serveWhen_same f htaken hserve)

/-- The commands that can change the Signal Timing Unit. -/
inductive WritesStu : Instr → Prop
  | powerOnReset {straps} : WritesStu (.powerOnReset straps)
  | softReset : WritesStu .softReset
  | laneDeparture {i pin} : WritesStu (.laneDeparture i pin)
  | laneAcceptance {i} : WritesStu (.laneAcceptance i)
  | glitch {i pin} : WritesStu (.glitch i pin)
  | bypassAcceptedChange {i pin} : WritesStu (.bypassAcceptedChange i pin)
  | episodeExpiry : WritesStu .episodeExpiry
  | clockCheckEnd {k n} : WritesStu (.clockCheckEnd k n)
  | tckClock {x y} : WritesStu (.tckClock x y)
  | laneConfig : WritesStu .laneConfig
  | glitchClear : WritesStu .glitchClear
  | decodeConfig : WritesStu .decodeConfig
  | decodeLoad : WritesStu .decodeLoad
  | clockCheck : WritesStu .clockCheck

theorem exec_stu {c : Instr} {s t : State} (h : exec c s = .next t) (hw : ¬ WritesStu c) : t.stu = s.stu := by
  cases c
  case powerOnReset | softReset | laneDeparture | laneAcceptance | glitch | bypassAcceptedChange | episodeExpiry
    | clockCheckEnd | tckClock | laneConfig | glitchClear | decodeConfig | decodeLoad | clockCheck =>
    exact absurd (by constructor) hw
  case memoryReady | tick | conversionEnd | blankHoldExpiry | busStart | busStop | busByteEnd | stuckTimeout
    | stuckEpisodeEnd | consoleByte | consoleBreak | idleClose | admission | classifyRecord | scanComplete
    | returnClockTimeout | abortPauseReached | pressEnd | deferralExpiry | frameArrival | linkEgress | linkDown
    | sampleTick | busLineDeparture | bitTaken | frameSent =>
    exact next_keeps (P := (·.stu = s.stu)) h (by simp)
  all_goals exact next_serveWhen (f := (·.stu)) h (fun _ => rfl) fun q u => by simp

/-- The commands that can change the buses and consoles. -/
inductive WritesBtu : Instr → Prop
  | powerOnReset {straps} : WritesBtu (.powerOnReset straps)
  | softReset : WritesBtu .softReset
  | busStart {g} : WritesBtu (.busStart g)
  | busStop {g} : WritesBtu (.busStop g)
  | busByteEnd {g} : WritesBtu (.busByteEnd g)
  | stuckTimeout {g} : WritesBtu (.stuckTimeout g)
  | stuckEpisodeEnd {g} : WritesBtu (.stuckEpisodeEnd g)
  | busLineDeparture {g l pin} : WritesBtu (.busLineDeparture g l pin)
  | bitTaken {g} : WritesBtu (.bitTaken g)
  | consoleByte {r pin} : WritesBtu (.consoleByte r pin)
  | consoleBreak {r} : WritesBtu (.consoleBreak r)
  | idleClose {r} : WritesBtu (.idleClose r)
  | sampleTick {r pin} : WritesBtu (.sampleTick r pin)
  | busConfig : WritesBtu .busConfig
  | consoleConfig : WritesBtu .consoleConfig

theorem exec_btu {c : Instr} {s t : State} (h : exec c s = .next t) (hw : ¬ WritesBtu c) : t.btu = s.btu := by
  cases c
  case powerOnReset | softReset | busStart | busStop | busByteEnd | stuckTimeout | stuckEpisodeEnd
    | busLineDeparture | bitTaken | consoleByte | consoleBreak | idleClose | sampleTick | busConfig
    | consoleConfig =>
    exact absurd (by constructor) hw
  case episodeExpiry => exact next_keeps (P := (·.btu = s.btu)) h (by split <;> simp)
  case memoryReady | tick | laneDeparture | laneAcceptance | glitch | bypassAcceptedChange | clockCheckEnd
    | conversionEnd | blankHoldExpiry | admission | classifyRecord | scanComplete | returnClockTimeout
    | abortPauseReached | pressEnd | deferralExpiry | frameArrival | linkEgress | linkDown | tckClock
    | frameSent =>
    exact next_keeps (P := (·.btu = s.btu)) h (by simp)
  all_goals exact next_serveWhen (f := (·.btu)) h (fun _ => rfl) fun q u => by simp

/-- The commands that can change the classifier. -/
inductive WritesCle : Instr → Prop
  | powerOnReset {straps} : WritesCle (.powerOnReset straps)
  | softReset : WritesCle .softReset
  | admission : WritesCle .admission
  | classifyRecord : WritesCle .classifyRecord
  | entryWrite : WritesCle .entryWrite
  | defaultWrite : WritesCle .defaultWrite
  | entryWriteDirect : WritesCle .entryWriteDirect
  | defaultWriteDirect : WritesCle .defaultWriteDirect
  | commit : WritesCle .commit
  | commitCancel : WritesCle .commitCancel
  | hitsClear : WritesCle .hitsClear
  | arm : WritesCle .arm

theorem exec_cle {c : Instr} {s t : State} (h : exec c s = .next t) (hw : ¬ WritesCle c) : t.cle = s.cle := by
  cases c
  case powerOnReset | softReset | admission | classifyRecord | entryWrite | defaultWrite | entryWriteDirect
    | defaultWriteDirect | commit | commitCancel | hitsClear | arm =>
    exact absurd (by constructor) hw
  case episodeExpiry => exact next_keeps (P := (·.cle = s.cle)) h (by split <;> simp)
  case memoryReady | tick | laneDeparture | laneAcceptance | glitch | bypassAcceptedChange | clockCheckEnd
    | conversionEnd | blankHoldExpiry | busStart | busStop | busByteEnd | stuckTimeout | stuckEpisodeEnd
    | consoleByte | consoleBreak | idleClose | scanComplete | returnClockTimeout | abortPauseReached | pressEnd
    | deferralExpiry | frameArrival | linkEgress | linkDown | sampleTick | busLineDeparture | bitTaken
    | tckClock | frameSent =>
    exact next_keeps (P := (·.cle = s.cle)) h (by simp)
  all_goals exact next_serveWhen (f := (·.cle)) h (fun _ => rfl) fun q u => by simp

/-- The commands that can change the Capture Store. -/
inductive WritesCst : Instr → Prop
  | powerOnReset {straps} : WritesCst (.powerOnReset straps)
  | softReset : WritesCst .softReset
  | memoryReady : WritesCst .memoryReady
  | tick : WritesCst .tick
  | laneAcceptance {i} : WritesCst (.laneAcceptance i)
  | bypassAcceptedChange {i pin} : WritesCst (.bypassAcceptedChange i pin)
  | classifyRecord : WritesCst .classifyRecord
  | linkEgress {b} : WritesCst (.linkEgress b)
  | timeSetImmediate : WritesCst .timeSetImmediate
  | laneConfig : WritesCst .laneConfig
  | arm : WritesCst .arm
  | stop : WritesCst .stop
  | triggerNow : WritesCst .triggerNow
  | ringConfig : WritesCst .ringConfig
  | ringStart : WritesCst .ringStart
  | ringStop : WritesCst .ringStop

theorem exec_cst {c : Instr} {s t : State} (h : exec c s = .next t) (hw : ¬ WritesCst c) : t.cst = s.cst := by
  cases c
  case powerOnReset | softReset | memoryReady | tick | laneAcceptance | bypassAcceptedChange | classifyRecord
    | linkEgress | timeSetImmediate | laneConfig | arm | stop | triggerNow | ringConfig | ringStart | ringStop =>
    exact absurd (by constructor) hw
  case episodeExpiry => exact next_keeps (P := (·.cst = s.cst)) h (by split <;> simp)
  case laneDeparture | glitch | clockCheckEnd | conversionEnd | blankHoldExpiry | busStart | busStop
    | busByteEnd | stuckTimeout | stuckEpisodeEnd | consoleByte | consoleBreak | idleClose | admission
    | scanComplete | returnClockTimeout | abortPauseReached | pressEnd | deferralExpiry | frameArrival
    | linkDown | sampleTick | busLineDeparture | bitTaken | tckClock | frameSent =>
    exact next_keeps (P := (·.cst = s.cst)) h (by simp)
  all_goals exact next_serveWhen (f := (·.cst)) h (fun _ => rfl) fun q u => by simp

/-- The commands that can change the Scan Engine. -/
inductive WritesSce : Instr → Prop
  | powerOnReset {straps} : WritesSce (.powerOnReset straps)
  | softReset : WritesSce .softReset
  | tick : WritesSce .tick
  | laneAcceptance {i} : WritesSce (.laneAcceptance i)
  | bypassAcceptedChange {i pin} : WritesSce (.bypassAcceptedChange i pin)
  | classifyRecord : WritesSce .classifyRecord
  | scanComplete : WritesSce .scanComplete
  | returnClockTimeout : WritesSce .returnClockTimeout
  | abortPauseReached : WritesSce .abortPauseReached
  | tckClock {x y} : WritesSce (.tckClock x y)
  | laneConfig : WritesSce .laneConfig
  | scanConfig : WritesSce .scanConfig
  | scanSubmit : WritesSce .scanSubmit
  | scanAbortBoundary : WritesSce .scanAbortBoundary
  | scanAbortImmediate : WritesSce .scanAbortImmediate
  | slotLoad : WritesSce .slotLoad

theorem exec_sce {c : Instr} {s t : State} (h : exec c s = .next t) (hw : ¬ WritesSce c) : t.sce = s.sce := by
  cases c
  case powerOnReset | softReset | tick | laneAcceptance | bypassAcceptedChange | classifyRecord | scanComplete
    | returnClockTimeout | abortPauseReached | tckClock | laneConfig | scanConfig | scanSubmit
    | scanAbortBoundary | scanAbortImmediate | slotLoad =>
    exact absurd (by constructor) hw
  case episodeExpiry => exact next_keeps (P := (·.sce = s.sce)) h (by split <;> simp)
  case memoryReady | laneDeparture | glitch | clockCheckEnd | conversionEnd | blankHoldExpiry | busStart
    | busStop | busByteEnd | stuckTimeout | stuckEpisodeEnd | consoleByte | consoleBreak | idleClose | admission
    | pressEnd | deferralExpiry | frameArrival | linkEgress | linkDown | sampleTick | busLineDeparture
    | bitTaken | frameSent =>
    exact next_keeps (P := (·.sce = s.sce)) h (by simp)
  all_goals exact next_serveWhen (f := (·.sce)) h (fun _ => rfl) fun q u => by simp

/-- The commands that can change the control lines. -/
inductive WritesDcu : Instr → Prop
  | powerOnReset {straps} : WritesDcu (.powerOnReset straps)
  | softReset : WritesDcu .softReset
  | tick : WritesDcu .tick
  | conversionEnd {x} : WritesDcu (.conversionEnd x)
  | classifyRecord : WritesDcu .classifyRecord
  | pressEnd {d} : WritesDcu (.pressEnd d)
  | deferralExpiry {d} : WritesDcu (.deferralExpiry d)
  | lineSetAssert : WritesDcu .lineSetAssert
  | lineSetRelease : WritesDcu .lineSetRelease
  | linePress : WritesDcu .linePress
  | lineConfig : WritesDcu .lineConfig
  | pairConfig : WritesDcu .pairConfig
  | pairConfigClear : WritesDcu .pairConfigClear
  | modeSetNormal : WritesDcu .modeSetNormal
  | modeSetHold : WritesDcu .modeSetHold
  | modeSetSafe : WritesDcu .modeSetSafe

theorem exec_dcu {c : Instr} {s t : State} (h : exec c s = .next t) (hw : ¬ WritesDcu c) : t.dcu = s.dcu := by
  cases c
  case powerOnReset | softReset | tick | conversionEnd | classifyRecord | pressEnd | deferralExpiry
    | lineSetAssert | lineSetRelease | linePress | lineConfig | pairConfig | pairConfigClear | modeSetNormal
    | modeSetHold | modeSetSafe =>
    exact absurd (by constructor) hw
  case episodeExpiry => exact next_keeps (P := (·.dcu = s.dcu)) h (by split <;> simp)
  case memoryReady | laneDeparture | laneAcceptance | glitch | bypassAcceptedChange | clockCheckEnd
    | blankHoldExpiry | busStart | busStop | busByteEnd | stuckTimeout | stuckEpisodeEnd | consoleByte
    | consoleBreak | idleClose | admission | scanComplete | returnClockTimeout | abortPauseReached
    | frameArrival | linkEgress | linkDown | sampleTick | busLineDeparture | bitTaken | tckClock | frameSent =>
    exact next_keeps (P := (·.dcu = s.dcu)) h (by simp)
  all_goals exact next_serveWhen (f := (·.dcu)) h (fun _ => rfl) fun q u => by simp

end Sys2Proof.Machine
end

section
/-! What every step of the Trigger Sequencer, of the tick and of the classifier keeps, given that its operations on the
other blocks keep it (5.3, 6.3, 6.5). -/

namespace Sys2Proof.Machine

set_option Elab.async false

/-- P is kept by the sequencer's own registers and by what the sequencer asks of the other blocks. -/
structure KeptBySequencer (P : State → Prop) : Prop where
  registers : ∀ {s} u, P s → P { s with tsq := u }
  alert : ∀ {s} a, P s → P (setAlert a s)
  inject : ∀ {s} n, P s → P (injectScan n s)
  press : ∀ {s} d w, P s → P (sequencerPress d w s)
  safe : ∀ {s}, P s → P (takeSafeRequest none s)
  capture : ∀ {s} v c, P s → P { s with cst := s.cst.trigger v c }

/-- P is kept by the sequencer, by the table, and by what the classifier asks of the other blocks for a record of A. -/
structure KeptByClassifier (A : Record → Prop) (P : State → Prop) : Prop extends KeptBySequencer P where
  table : ∀ {s} u, P s → P { s with cle := u }
  ring : ∀ {s} i r x, A r → P s → P (offer i r x s)
  scan : ∀ {s} x, P s → P (scanVerdict x s)
  drive : ∀ {s} x k, P s → P (driveVerdict x k s)

namespace KeptBySequencer

variable {P : State → Prop} {s : State}

theorem finishRun (k : KeptBySequencer P) (h : P s) : P (finishRun s) := by
  unfold Machine.finishRun
  split
  · exact k.alert _ (k.registers _ h)
  · exact h

theorem triggerRun (k : KeptBySequencer P) {v c} (h : P s) : P (triggerRun v c s) :=
  k.finishRun (k.alert _ (k.registers _ (k.capture v c h)))

theorem frozenNotice (k : KeptBySequencer P) {i} (h : P s) : P (frozenNotice i s) := by
  unfold Machine.frozenNotice
  dsimp only
  split
  · exact k.finishRun (k.registers _ h)
  · exact k.registers _ h

theorem branchAction (k : KeptBySequencer P) {a} (h : P s) : P (branchAction a s) := by
  cases a with
  | startCounter | stopCounter | clearCounter => exact k.registers _ h
  | injectScan n => exact k.inject n h
  | pressLine d w => exact k.press d w h
  | enterSafe => exact k.safe h
  | seqAlert => exact k.alert _ h

theorem takeBranch (k : KeptBySequencer P) {b c v} (h : P s) : P (takeBranch b c v s) := by
  have hactions : P (forEach b.actions Machine.branchAction s) :=
    forEach_keeps P _ _ _ (fun _ _ _ => k.branchAction) h
  unfold Machine.takeBranch
  dsimp only
  split
  · exact k.registers _ hactions
  · exact hactions
  · exact k.triggerRun hactions

theorem compareClass (k : KeptBySequencer P) {e v} (h : P s) : P (compareClass e v s) := by
  unfold Machine.compareClass
  dsimp only
  split
  · exact k.takeBranch h
  · split
    · exact k.takeBranch h
    · exact h

theorem handleMatch (k : KeptBySequencer P) {v c} (h : P s) : P (handleMatch v c s) := by
  unfold Machine.handleMatch
  dsimp only
  split
  · exact k.compareClass (k.registers _ h)
  · exact k.registers _ h

theorem deliverClass (k : KeptBySequencer P) {e v} (h : P s) : P (deliverClass e v s) := by
  unfold Machine.deliverClass
  split
  · exact forEach_keeps P _ _ _ (fun _ _ _ => k.handleMatch) (k.compareClass (k.registers _ h))
  · exact h

theorem sequencerTick (k : KeptBySequencer P) (h : P s) : P (sequencerTick s) := by
  unfold Machine.sequencerTick
  split
  · exact forEach_keeps P _ _ _ (fun _ _ _ => k.handleMatch) (k.registers _ h)
  · exact h

theorem tick (k : KeptBySequencer P) (htime : ∀ {u : State} v, P u → P { u with tbu := v }) (h : P s) :
    P (tick s) := by
  unfold Machine.tick
  split
  · exact k.sequencerTick (htime _ h)
  · exact h

end KeptBySequencer

namespace KeptByClassifier

variable {A : Record → Prop} {P : State → Prop} {s : State}

theorem swapBanks (k : KeptByClassifier A P) (h : P s) : P (swapBanks s) := k.alert _ (k.table _ h)

theorem performActions (k : KeptByClassifier A P) {a r} (hr : A r) (h : P s) : P (performActions a r s) := by
  have hoffer : P (offerStage a r s) := by
    unfold offerStage
    split
    · exact k.ring _ _ _ hr h
    · exact h
  have hverdict : P (verdictStage a r (offerStage a r s)) := by
    unfold verdictStage
    split
    · exact k.scan _ hoffer
    · exact k.drive _ _ hoffer
    · exact hoffer
  have halert : P (alertStage a (verdictStage a r (offerStage a r s))) := by
    unfold alertStage
    split
    · exact k.alert _ hverdict
    · exact hverdict
  have hclass : P (classStage a r (alertStage a (verdictStage a r (offerStage a r s)))) := by
    unfold classStage
    split
    · exact k.deliverClass halert
    · exact halert
  unfold Machine.performActions onClassCommit
  split
  · split
    · exact k.swapBanks hclass
    · exact hclass
  · exact hclass

theorem classifyNext (k : KeptByClassifier A P) (hA : ∀ r ∈ s.cle.queue, A r) (h : P s) : P (classifyNext s) := by
  unfold Machine.classifyNext
  split
  · next r rest hq =>
    refine k.performActions (hA r (hq ▸ List.mem_cons_self)) (k.table _ ?_)
    unfold nextRecordCommit
    split
    · exact k.swapBanks (k.table _ h)
    · exact k.table _ h
  · exact h

end KeptByClassifier

end Sys2Proof.Machine
end

section
/-! The interlock and the safe levels (9.2, 9.5): a line is made active only while its partner is inactive, and in
SAFE no line moves. -/

namespace Sys2Proof.Machine

set_option Elab.async false

open Sys2Proof.Claims

/-! ## Partners -/

section
variable {u : Dcu} {d : Fin 8} {n : Fin 4} {p : Pair}

/-- The partner a pair gives a line. -/
def Pair.partnerOf (p : Pair) (d : Fin 8) : Option (Fin 8 × Nat) :=
  if p.a = d then some (p.b, p.gap) else if p.b = d then some (p.a, p.gap) else none

theorem Dcu.partner_eq (u : Dcu) (d : Fin 8) :
    u.partner d = u.pairs.toList.findSome? fun p => p.bind fun p => p.partnerOf d := rfl

theorem Pair.partnerOf_isSome : (p.partnerOf d).isSome = true ↔ p.has d := by
  unfold Pair.partnerOf Pair.has
  by_cases ha : p.a = d <;> by_cases hb : p.b = d <;> simp [ha, hb]

/-- A line of a pair has the partner that pair gives it. -/
theorem Dcu.interlocked.partner (h : u.interlocked) (hp : p ∈ (u.pairs[n]'n.isLt)) (hd : p.has d) :
    u.partner d = p.partnerOf d := by
  obtain ⟨-, hone⟩ := h
  obtain ⟨x, hx⟩ := Option.isSome_iff_exists.mp (Pair.partnerOf_isSome.mpr hd)
  rw [Dcu.partner_eq, hx, List.findSome?_eq_some_iff]
  refine ⟨u.pairs.toList.take n.val, some p, u.pairs.toList.drop (n.val + 1), ?_, by simpa using hx, ?_⟩
  · have hn : u.pairs.toList[n.val]'(by simp) = some p := by simpa using hp
    rw [← hn, ← List.drop_eq_getElem_cons, List.take_append_drop]
  · intro o ho
    obtain ⟨m, hm, hget⟩ := List.mem_take_iff_getElem.mp ho
    have hmn : (⟨m, by omega⟩ : Fin 4) ≠ n := fun e => by
      have := congrArg Fin.val e
      simp only at this
      omega
    cases o with
    | none => rfl
    | some q =>
      have hq : q ∈ u.pairs[(⟨m, by omega⟩ : Fin 4)] := by simpa using hget
      have hno : ¬q.has d := fun hqd => hone _ _ hmn q hq p hp d ⟨hqd, hd⟩
      simpa using mt Pair.partnerOf_isSome.mp hno

/-- A change of one line leaves no pair with φ at both lines, if the line gains φ only while its partner lacks it. -/
theorem Dcu.interlocked.notBoth_put (h : u.interlocked) (hp : p ∈ (u.pairs[n]'n.isLt)) (φ : Line → Bool) {l : Line}
    (hφ : ¬(φ (u.lines[p.a]'p.a.isLt) = true ∧ φ (u.lines[p.b]'p.b.isLt) = true))
    (hl : φ l = true → φ (u.lines[d]'d.isLt) = true ∨ ((u.partner d).any fun x => φ (u.lines[x.1]'x.1.isLt)) = false) :
    ¬(φ ((put u.lines d l)[p.a]'p.a.isLt) = true ∧ φ ((put u.lines d l)[p.b]'p.b.isLt) = true) := by
  have hne : p.a ≠ p.b := (h.1 n p hp).1
  rintro ⟨ha, hb⟩
  rw [put_get] at ha hb
  by_cases hda : d = p.a
  · rw [if_pos hda] at ha
    rw [if_neg fun e => hne (hda.symm.trans e)] at hb
    rcases hl ha with hold | hno
    · exact hφ ⟨hda ▸ hold, hb⟩
    · rw [h.partner hp (.inl hda.symm)] at hno
      simp [Pair.partnerOf, hda, hb, -Fin.getElem_fin] at hno
  · rw [if_neg hda] at ha
    by_cases hdb : d = p.b
    · rw [if_pos hdb] at hb
      rcases hl hb with hold | hno
      · exact hφ ⟨ha, hdb ▸ hold⟩
      · rw [h.partner hp (.inr hdb.symm)] at hno
        simp [Pair.partnerOf, hdb, ha, hne, -Fin.getElem_fin] at hno
    · rw [if_neg hdb] at hb
      exact hφ ⟨ha, hb⟩

/-- The interlock holds after a change of one line that makes it active, or its safe level ASSERTED, only while its
partner's is not. -/
theorem Dcu.interlocked.setLine (h : u.interlocked) {l : Line}
    (hact : l.state.active = true → (u.lines[d]'d.isLt).state.active = true ∨ u.partnerActive d = false)
    (hsafe : l.safeAsserted = true →
      (u.lines[d]'d.isLt).safeAsserted = true ∨
        ((u.partner d).any fun x => (u.lines[x.1]'x.1.isLt).safeAsserted) = false) :
    (u.setLine d l).interlocked := by
  refine ⟨fun n p hp => ?_, h.2⟩
  obtain ⟨hne, hboth, hlevels⟩ := h.1 n p hp
  exact ⟨hne, h.notBoth_put hp (fun l => l.state.active) hboth hact, h.notBoth_put hp Line.safeAsserted hlevels hsafe⟩

/-- Lines at their safe levels are interlocked. -/
theorem Dcu.interlocked.atSafeLevels {v : Dcu} (h : u.interlocked) (hpairs : v.pairs = u.pairs)
    (hsafe : ∀ d : Fin 8, (v.lines[d]'d.isLt).safeAsserted = (u.lines[d]'d.isLt).safeAsserted)
    (hstate : ∀ d : Fin 8, (v.lines[d]'d.isLt).state = if (u.lines[d]'d.isLt).safeAsserted then .asserted
      else .released) : v.interlocked := by
  unfold Dcu.interlocked
  rw [hpairs]
  refine ⟨fun n p hp => ?_, h.2⟩
  obtain ⟨hne, -, hlevels⟩ := h.1 n p hp
  have hactive (d : Fin 8) : (v.lines[d]'d.isLt).state.active = (u.lines[d]'d.isLt).safeAsserted := by
    rw [hstate]
    cases (u.lines[d]'d.isLt).safeAsserted <;> rfl
  rw [hactive, hactive, hsafe, hsafe]
  exact ⟨hne, hlevels, hlevels⟩

theorem Dcu.safeHeld_of_mode (h : u.mode ≠ .safe) : u.safeHeld := fun e => absurd e h

/-- A change of a line that keeps its state and its safe level keeps the lines of SAFE at their levels. -/
theorem Dcu.safeHeld.setLine (h : u.safeHeld) {l : Line} (hstate : l.state = (u.lines[d]'d.isLt).state)
    (hsafe : l.safeAsserted = (u.lines[d]'d.isLt).safeAsserted) : (u.setLine d l).safeHeld := by
  intro hm b
  rw [Dcu.setLine_lines, put_get]
  split
  · next e => rw [hstate, hsafe, e]; exact h hm b
  · exact h hm b

/-- In SAFE no line is PRESSING or DEFERRED. -/
theorem Dcu.safeHeld.state_cases (h : u.safeHeld) (hm : u.mode = .safe) (d : Fin 8) :
    (u.lines[d]'d.isLt).state = .asserted ∨ (u.lines[d]'d.isLt).state = .released := by
  rw [h hm d]
  cases (u.lines[d]'d.isLt).safeAsserted
  · exact .inr rfl
  · exact .inl rfl

/-- A pair PAIR CONFIG allows keeps the interlock (R175). -/
theorem Dcu.interlocked.setPair (h : u.interlocked) (hp : u.pairAllowed n p = true) :
    Dcu.interlocked { u with pairs := put u.pairs n (some p) } := by
  simp only [Dcu.pairAllowed, Bool.and_eq_true, bne_iff_ne, Bool.not_eq_true', Bool.and_eq_false_iff] at hp
  obtain ⟨⟨⟨⟨hne, ha⟩, hb⟩, hlevels⟩, hboth⟩ := hp
  have helse {m : Fin 4} {q : Pair} (hmn : m ≠ n) (hq : q ∈ (u.pairs[m]'m.isLt)) (d : Fin 8) :
    ¬(p.has d ∧ q.has d) := by
    have hnot {d : Fin 8} (hd : u.pairedElsewhere n d = false) : ¬q.has d := by
      intro hqd
      have hyes : u.pairedElsewhere n d = true := by
        refine List.any_eq_true.mpr ⟨m, List.mem_finRange m, ?_⟩
        rw [Option.mem_def.mp hq]
        simpa [hmn, Pair.has] using hqd
      rw [hyes] at hd
      exact Bool.noConfusion hd
    rintro ⟨hpd | hpd, hqd⟩
    · exact hnot ha (hpd ▸ hqd)
    · exact hnot hb (hpd ▸ hqd)
  refine ⟨fun m q hq => ?_, fun m k hmk q hq r hr d => ?_⟩
  · simp only [put_get] at hq
    split at hq
    · obtain rfl : p = q := by simpa using hq
      refine ⟨hne, ?_, ?_⟩
      · rintro ⟨x, y⟩
        simp_all [-Fin.getElem_fin]
      · rintro ⟨x, y⟩
        simp_all [-Fin.getElem_fin]
    · exact h.1 m q hq
  · simp only [put_get] at hq hr
    split at hq
    · next e =>
      obtain rfl : p = q := by simpa using hq
      rw [if_neg fun e' => hmk (e.symm.trans e')] at hr
      exact helse (fun e' => hmk (e.symm.trans e'.symm)) hr d
    · next e =>
      split at hr
      · obtain rfl : p = r := by simpa using hr
        exact fun hd => helse (Ne.symm e) hq d hd.symm
      · exact h.2 m k hmk q hq r hr d

theorem Dcu.interlocked.clearPair (h : u.interlocked) : Dcu.interlocked { u with pairs := put u.pairs n none } := by
  have hold {m : Fin 4} {q : Pair} (hq : q ∈ ((put u.pairs n none)[m]'m.isLt)) : q ∈ (u.pairs[m]'m.isLt) := by
    rw [put_get] at hq
    split at hq
    · exact absurd hq (by simp)
    · exact hq
  exact ⟨fun m q hq => h.1 m q (hold hq), fun m k hmk q hq r hr => h.2 m k hmk q (hold hq) r (hold hr)⟩

end

/-! ## The operations of the unit -/

/-- The interlock holds, and in SAFE every line stands at its safe level. -/
def State.linesSound (s : State) : Prop := s.dcu.interlocked ∧ s.dcu.safeHeld

section
variable {s t : State}

theorem State.linesSound.of_dcu (h : s.linesSound) (e : t.dcu = s.dcu) : t.linesSound := by
  rw [State.linesSound, e]
  exact h

theorem linesSound_update {pending clock free pins tbu hold stu rmu btu cle tsq cst sce slu} :
    State.linesSound ⟨pending, clock, free, pins, tbu, hold, stu, rmu, btu, cle, tsq, cst, sce, s.dcu, slu⟩ ↔
      s.linesSound := Iff.rfl

/-- Outside SAFE a line may change to any state that is inactive, and to an active one while its partner is inactive. -/
theorem linesSound_moveLine {d st} (h : s.linesSound) (hmode : s.dcu.mode ≠ .safe)
    (hact : st.active = true → (s.dcu.lines[d]'d.isLt).state.active = true ∨ s.dcu.partnerActive d = false) :
    (moveLine d st s).linesSound := by
  rw [State.linesSound, moveLine_dcu]
  exact ⟨h.1.setLine hact .inl, Dcu.safeHeld_of_mode hmode⟩

/-- A change of what a line holds in guard. -/
theorem linesSound_setGuarded {d g} (h : s.linesSound) :
    (setLine d { (s.dcu.lines[d]'d.isLt) with guarded := g } s).linesSound :=
  ⟨h.1.setLine .inl .inl, h.2.setLine rfl rfl⟩

theorem linesSound_assertLine {d r} (h : s.linesSound) (hmode : s.dcu.mode ≠ .safe)
    (hpartner : s.dcu.partnerActive d = false) : (assertLine d r s).linesSound := by
  have hrecord : (produce (driveRecord .driveAssert d r.action .none r.width s.now) s).linesSound := h
  unfold assertLine
  exact State.linesSound.of_dcu (linesSound_moveLine hrecord hmode fun _ => .inr hpartner) (respondTo_dcu ..)

theorem linesSound_deferOrAssert {d r} (h : s.linesSound) (hmode : s.dcu.mode ≠ .safe)
    (hpartner : s.dcu.partnerActive d = false) : (deferOrAssert d r s).linesSound := by
  unfold deferOrAssert
  split
  · exact linesSound_moveLine h hmode (by simp [LineState.active])
  · exact linesSound_assertLine h hmode hpartner

theorem linesSound_lineVerdict {x d} (h : s.linesSound) : (lineVerdict x d s).linesSound := by
  unfold lineVerdict
  split
  · exact h
  · have hs1 := linesSound_setGuarded (d := d) (g := none) h
    dsimp only
    split
    · exact hs1.of_dcu (by simp)
    · split
      · exact hs1.of_dcu (by simp)
      · split
        · exact hs1.of_dcu (by simp)
        · exact hs1.of_dcu (by simp)
        · next hmode =>
          split
          · exact hs1.of_dcu (by simp)
          · next hpartner => exact linesSound_deferOrAssert hs1 (by simp [setLine, hmode]) (by simpa using hpartner)

theorem linesSound_deferralExpiry {d} (h : s.linesSound) : (deferralExpiry d s).linesSound := by
  unfold deferralExpiry
  split
  · next r e hstate =>
    have hmode : s.dcu.mode ≠ .safe := fun hm => by
      rcases h.2.state_cases hm d with hs | hs <;> rw [hs] at hstate <;> cases hstate
    split
    · split
      · exact linesSound_moveLine (h.of_dcu (by simp)) (by simpa using hmode) (by simp [LineState.active])
      · next hpartner => exact linesSound_deferOrAssert h hmode (by simpa using hpartner)
    · exact h
  · exact h

theorem linesSound_pressEnd {d} (h : s.linesSound) : (pressEnd d s).linesSound := by
  unfold pressEnd
  split
  · next w e hstate =>
    have hmode : s.dcu.mode ≠ .safe := fun hm => by
      rcases h.2.state_cases hm d with hs | hs <;> rw [hs] at hstate <;> cases hstate
    split
    · exact linesSound_moveLine (h.of_dcu (by simp)) hmode (by simp [LineState.active])
    · exact h
  · exact h

theorem linesSound_enterSafe (h : s.linesSound) : (enterSafe s).linesSound := by
  by_cases hm : s.dcu.mode = .safe
  · rw [enterSafe_inSafe s hm]
    exact h
  · have hline (d : Fin 8) := enterSafe_line d s hm
    refine ⟨h.1.atSafeLevels (hline 0).2.2 (fun d => (hline d).2.1) fun d => (hline d).1, fun _ d => ?_⟩
    obtain ⟨hstate, hlevel, -⟩ := hline d
    rw [hstate, hlevel]

theorem linesSound_setSafeGuard {l} (h : s.linesSound) :
    State.linesSound { s with dcu := { s.dcu with safeGuard := l } } := h

theorem linesSound_takeSafeRequest {q} (h : s.linesSound) : (takeSafeRequest q s).linesSound := by
  unfold takeSafeRequest
  split_ifs
  · exact h.of_dcu (by simp)
  · exact h
  · exact (linesSound_setSafeGuard h).of_dcu rfl

theorem linesSound_driveVerdict {x k} (h : s.linesSound) : (driveVerdict x k s).linesSound := by
  unfold driveVerdict
  split
  · unfold safeVerdict
    dsimp only
    split
    · exact h
    · next rest _ =>
      have hrest := linesSound_setSafeGuard (l := rest) h
      split
      · exact hrest.of_dcu (by simp)
      · exact (linesSound_enterSafe hrest).of_dcu (by simp)
  · exact linesSound_lineVerdict h

theorem linesSound_takeInNormal {d r} (h : s.linesSound) (hmode : s.dcu.mode = .normal) :
    (takeInNormal d r s).linesSound := by
  unfold takeInNormal
  split
  · exact (linesSound_setGuarded h).of_dcu rfl
  · exact h.of_dcu (by simp)
  · exact h.of_dcu (by simp)
  · next w e hstate hact =>
    have hset : (setLine d
        { (s.dcu.lines[d]'d.isLt) with state := .pressing r.width (s.clock + Config.clocksPerMs * r.width) }
          s).linesSound :=
      ⟨h.1.setLine (fun _ => .inl (by rw [hstate]; rfl)) .inl, Dcu.safeHeld_of_mode (by simp [setLine, hmode])⟩
    exact hset.of_dcu (by simp [retrigger])
  · exact h.of_dcu (by simp)
  · exact h.of_dcu (by simp)

theorem linesSound_takeLineRequest {d r} (h : s.linesSound) : (takeLineRequest d r s).linesSound := by
  unfold takeLineRequest
  split
  · exact h.of_dcu (by simp)
  · exact h.of_dcu (by simp)
  · next hmode =>
    split
    · exact h.of_dcu (by simp)
    · exact linesSound_takeInNormal h hmode

theorem linesSound_releaseLine {d} (h : s.linesSound) (hmode : s.dcu.mode = .normal) :
    (releaseLine d s).linesSound := by
  have hne : s.dcu.mode ≠ .safe := by simp [hmode]
  unfold releaseLine releaseActive
  split
  · exact linesSound_moveLine (h.of_dcu rfl) hne (by simp [LineState.active])
  · exact linesSound_moveLine (h.of_dcu rfl) hne (by simp [LineState.active])
  · exact (linesSound_moveLine (d := d) (st := .released) h hne (by simp [LineState.active])).of_dcu (by simp)
  · exact linesSound_setGuarded h

theorem linesSound_conversionResult {c x} (h : s.linesSound) : (conversionResult c x s).linesSound := by
  simp only [conversionResult, protectStage]
  split
  · exact linesSound_enterSafe (h.of_dcu (by simp))
  · exact h.of_dcu (by simp)

theorem linesSound_conversionEnd {x} (h : s.linesSound) : (conversionEnd x s).linesSound := by
  unfold conversionEnd
  split
  · exact linesSound_update.mpr (linesSound_conversionResult (linesSound_update.mpr h))
  · exact h

theorem linesSound_keptByClassifier : KeptByClassifier (fun _ => True) State.linesSound where
  registers _ h := h
  alert _ h := h
  inject _ h := h.of_dcu (by simp)
  press _ _ h := linesSound_takeLineRequest h
  safe h := linesSound_takeSafeRequest h
  capture _ _ h := h
  table _ h := h
  ring _ _ _ _ h := h.of_dcu (by simp)
  scan _ h := h.of_dcu (by simp)
  drive _ _ h := linesSound_driveVerdict h

/-! ## Requests -/

variable {q : Request}

theorem linesSound_serveLineSetAssert (h : s.linesSound) : (serveLineSetAssert q s).linesSound := by
  unfold serveLineSetAssert
  (repeat' split)
  · exact linesSound_takeLineRequest h
  all_goals exact h.of_dcu rfl

theorem linesSound_serveLineSetRelease (h : s.linesSound) : (serveLineSetRelease q s).linesSound := by
  unfold serveLineSetRelease
  (repeat' split)
  · exact h.of_dcu (by simp)
  · exact h.of_dcu (by simp)
  · next hmode => exact (linesSound_releaseLine h hmode).of_dcu rfl
  all_goals exact h.of_dcu rfl

theorem linesSound_serveLinePress (h : s.linesSound) : (serveLinePress q s).linesSound := by
  unfold serveLinePress
  split
  · exact linesSound_takeLineRequest h
  · exact h.of_dcu rfl

theorem linesSound_serveLineConfig (h : s.linesSound) : (serveLineConfig q s).linesSound := by
  unfold serveLineConfig
  dsimp only
  split
  · next d level _ _ =>
    split
    · exact h.of_dcu rfl
    · split
      · exact h.of_dcu rfl
      · next hpartner =>
        split
        · exact h.of_dcu rfl
        · next hmode =>
          refine ⟨h.1.setLine .inl fun hl => .inr ?_, Dcu.safeHeld_of_mode hmode⟩
          dsimp only at hl
          simpa [hl, -Fin.getElem_fin] using hpartner
  · exact h.of_dcu rfl

theorem linesSound_servePairConfig (h : s.linesSound) : (servePairConfig q s).linesSound := by
  unfold servePairConfig
  (repeat' split)
  · next n p _ hp => exact ⟨h.1.setPair hp, h.2⟩
  all_goals exact h.of_dcu rfl

theorem linesSound_servePairConfigClear (h : s.linesSound) : (servePairConfigClear q s).linesSound := by
  unfold servePairConfigClear
  (repeat' split)
  · exact ⟨h.1.clearPair, h.2⟩
  all_goals exact h.of_dcu rfl

/-- A mode but SAFE says nothing of the lines. -/
theorem linesSound_setMode {m} (hm : m ≠ .safe) (h : s.linesSound) : (setMode m q s).linesSound := by
  unfold setMode
  split
  · exact h.of_dcu rfl
  · exact ⟨h.1, Dcu.safeHeld_of_mode hm⟩

theorem linesSound_serveModeSetNormal (h : s.linesSound) : (serveModeSetNormal q s).linesSound := by
  unfold serveModeSetNormal
  split
  · exact linesSound_setMode (by decide) h
  · exact h.of_dcu rfl

theorem linesSound_serveModeSetHold (h : s.linesSound) : (serveModeSetHold q s).linesSound := by
  unfold serveModeSetHold
  split
  · exact linesSound_setMode (by decide) h
  · exact h.of_dcu rfl

theorem linesSound_serveModeSetSafe (h : s.linesSound) : (serveModeSetSafe q s).linesSound := by
  unfold serveModeSetSafe
  split
  · exact linesSound_takeSafeRequest h
  · exact h.of_dcu rfl

/-! ## Steps -/

theorem linesSound_serveWhen {code fits handler} (h : s.linesSound)
    (hs : ∀ q u, u.linesSound → (handler q u).linesSound) : (serveWhen code fits handler s).linesSound :=
  serveWhen_keeps h fun q _ _ _ _ => hs q _ (h.of_dcu rfl)

theorem reset_linesSound : State.reset.linesSound := ⟨reset_interlocked, reset_safeHeld⟩

theorem linesSound_exec_of_writes {c : Instr} (hs : s.linesSound) (h : exec c s = .next t) (hw : WritesDcu c) :
    t.linesSound := by
  cases hw <;> obtain rfl := Host.Outcome.next.inj h
  case powerOnReset => exact reset_linesSound.of_dcu rfl
  case softReset => exact serveWhen_keeps hs fun _ _ _ _ _ => reset_linesSound.of_dcu rfl
  case tick => exact linesSound_keptByClassifier.tick (fun _ hu => hu) hs
  case conversionEnd => exact linesSound_conversionEnd hs
  case classifyRecord => exact linesSound_keptByClassifier.classifyNext (fun _ _ => trivial) hs
  case pressEnd => exact linesSound_pressEnd hs
  case deferralExpiry => exact linesSound_deferralExpiry hs
  all_goals refine linesSound_serveWhen hs fun q u hu => ?_
  case lineSetAssert => exact linesSound_serveLineSetAssert hu
  case lineSetRelease => exact linesSound_serveLineSetRelease hu
  case linePress => exact linesSound_serveLinePress hu
  case lineConfig => exact linesSound_serveLineConfig hu
  case pairConfig => exact linesSound_servePairConfig hu
  case pairConfigClear => exact linesSound_servePairConfigClear hu
  case modeSetNormal => exact linesSound_serveModeSetNormal hu
  case modeSetHold => exact linesSound_serveModeSetHold hu
  case modeSetSafe => exact linesSound_serveModeSetSafe hu

theorem linesSound_exec {c : Instr} (hs : s.linesSound) (h : exec c s = .next t) : t.linesSound := by
  by_cases hw : WritesDcu c
  · exact linesSound_exec_of_writes hs h hw
  · exact hs.of_dcu (exec_dcu h hw)

/-- Settles O57: every command keeps the interlock and the safe levels, and a core clock touches no line. -/
theorem interlockAndSafeLevelsHold : Obligations.InterlockAndSafeLevelsHold := by
  intro s t hi hs h
  exact step_keeps (P := State.linesSound) (fun _ _ hu => hu) (fun _ _ _ hu he => linesSound_exec hu he)
    (fun _ hu => hu) ⟨hi, hs⟩ h

end

end Sys2Proof.Machine
end

section
/-! Capture rings (chapter 7): what making room and a write keep of a ring's soundness, and that a WINDOW ring keeps its
youngest entries. -/

namespace Sys2Proof.Machine

set_option Elab.async false

open Sys2Proof.Claims

/-! ## Entries an operation writes -/

/-- An entry to be written: it stores the delta it is given, is no MARK, and is at most 7 words long, as many for each
delta. -/
def writable (e : Int → Entry) : Prop :=
  ∀ d d', (e d).words = (e d').words ∧ (e d).words ≤ 7 ∧ (e d).isMark = false ∧ (e d).delta = d

theorem writable_ordinaryEntry {r : Record} (h : r.bodyWithin) (strip : Bool) : writable (ordinaryEntry r strip) := by
  intro d d'
  refine ⟨rfl, ?_, rfl, rfl⟩
  have hbody : (if strip then [] else r.body).length ≤ 16 := by
    split
    · exact Nat.zero_le _
    · exact h
  simp only [ordinaryEntry, Entry.words]
  omega

theorem writable_trig (c : Cause) :
    writable fun d => .trig d c := fun _ _ => by simp [Entry.words, Entry.isMark, Entry.delta]

theorem writable_gap (n : Nat) :
    writable fun d => .gap d n := fun _ _ => by simp [Entry.words, Entry.isMark, Entry.delta]

section
variable {r w : Ring} {v : Stamp} {e : Int → Entry}

/-! ## When a MARK is due -/

/-- R130's four causes; a ring with no reference needs a MARK too. -/
theorem Ring.needsMark_iff_due (r : Ring) (v : Stamp) :
    r.needsMark v = true ↔ r.entries = [] ∨ r.markDue = true ∨ 64 ≤ r.sinceMark ∨
      ∀ ref, r.reference = some ref → deltaFits (deltaOf v ref) = false := by
  simp only [Ring.needsMark, Bool.or_eq_true, List.isEmpty_iff, decide_eq_true_eq, or_assoc]
  cases r.reference <;> simp

/-- A ring that needs no MARK has a reference from which the delta fits, and room for another entry before the next. -/
theorem Ring.reference_of_needsMark (h : r.needsMark v = false) :
    r.sinceMark < 64 ∧ ∃ ref, r.reference = some ref ∧ deltaFits (deltaOf v ref) = true := by
  have hno := mt (Ring.needsMark_iff_due r v).mpr (by simp [h])
  push Not at hno
  obtain ⟨-, -, hsince, ref, href, hfits⟩ := hno
  exact ⟨hsince, ref, href, by simpa using hfits⟩

/-! ## Deltas, marks and references -/

/-- A ring's deltas fit 24 bits, it has at most 64 entries since its last MARK, and a reference if it holds entries. -/
def Ring.chained (r : Ring) : Prop :=
  (∀ x ∈ r.entries, deltaFits x.delta = true) ∧ r.sinceMark ≤ 64 ∧ (r.entries ≠ [] → r.reference.isSome = true)

/-- A WINDOW ring has a MARK at its oldest end. -/
def Ring.headed (r : Ring) : Prop := r.mode = .window → ∀ x ∈ r.entries.head?, x.isMark = true

theorem Ring.sound_iff : r.sound ↔ r.occupancy ≤ r.capacity ∧ r.chained ∧ r.headed := by
  unfold Ring.sound Ring.chained Ring.headed
  tauto

theorem Ring.write_chained (h : r.chained) (he : writable e) : (r.write v e).chained := by
  obtain ⟨hdeltas, hsince, -⟩ := h
  cases hm : r.needsMark v with
  | true =>
    rw [Ring.write_marked r v e hm]
    refine ⟨fun x hx => ?_, by simp, by simp⟩
    simp only [List.mem_append, List.mem_cons, List.not_mem_nil, or_false] at hx
    rcases hx with hx | rfl | rfl
    · exact hdeltas x hx
    · rfl
    · rw [(he 0 0).2.2.2]
      rfl
  | false =>
    obtain ⟨hlt, ref, href, hfits⟩ := Ring.reference_of_needsMark hm
    rw [Ring.write_plain r v ref e hm href]
    refine ⟨fun x hx => ?_, hlt, by simp [href]⟩
    simp only [List.mem_append, List.mem_cons, List.not_mem_nil, or_false] at hx
    rcases hx with hx | rfl
    · exact hdeltas x hx
    · rw [(he _ 0).2.2.2]
      exact hfits

theorem Ring.write_head? (r : Ring) (v : Stamp) (e : Int → Entry) :
    (r.write v e).entries.head? = if r.entries = [] then some (.mark v) else r.entries.head? := by
  obtain ⟨d, hw⟩ := r.write_entries v e
  rw [hw]
  cases hl : r.entries with
  | nil => simp [(Ring.needsMark_iff_due r v).mpr (.inl hl)]
  | cons x l => simp

theorem Ring.write_headed (h : r.headed) : (r.write v e).headed := by
  intro hmode x hx
  rw [(r.write_fixed v e).1] at hmode
  rw [Ring.write_head?] at hx
  split at hx
  · obtain rfl : Entry.mark v = x := by simpa using hx
    rfl
  · exact h hmode x hx

theorem Ring.chained.of_drop (h : r.chained) {k : Nat} (hk : w.entries = r.entries.drop k)
    (hs : w.sinceMark = r.sinceMark) (hr : w.reference = r.reference) : w.chained := by
  obtain ⟨hdeltas, hsince, href⟩ := h
  refine ⟨fun x hx => hdeltas x (List.mem_of_mem_drop (hk ▸ hx)), hs ▸ hsince, fun hne => hr ▸ href ?_⟩
  rintro hnil
  exact hne (by rw [hk, hnil, List.drop_nil])

theorem Ring.makeRoom_chained {need n : Nat} (h : r.chained) : (r.makeRoom need n).1.chained := by
  obtain ⟨⟨k, hk⟩, -, -, -, -, -, -, href, -, hsince, -⟩ := Ring.makeRoom_drops need n r
  exact h.of_drop hk hsince href

theorem Ring.makeRoom_headed {need n : Nat} (h : r.headed) : (r.makeRoom need n).1.headed := by
  intro hmode x hx
  rw [(Ring.makeRoom_drops need n r).2.1] at hmode
  obtain ⟨k, -, hk, -, -, -, -, hmark, -⟩ := Ring.makeRoom_groups need n r
  rw [hk] at hx
  rcases Nat.eq_zero_or_pos k with rfl | hpos
  · exact h hmode x (by simpa using hx)
  · exact hmark hpos x hx

theorem Ring.makeRoom_capacity (need n : Nat) (r : Ring) : (r.makeRoom need n).1.capacity = r.capacity := by
  obtain ⟨-, -, -, hsize, -⟩ := Ring.makeRoom_drops need n r
  rw [Ring.capacity, hsize, Ring.capacity]

theorem Ring.makeRoom_occupancy (need n : Nat) (r : Ring) : (r.makeRoom need n).1.occupancy ≤ r.occupancy := by
  obtain ⟨⟨k, hk⟩, -⟩ := Ring.makeRoom_drops need n r
  rw [Ring.occupancy, hk]
  exact wordsOf_drop_le k _

/-! ## Room for a write -/

theorem Ring.needs_le (he : writable e) : r.needs v e ≤ 10 := by
  have := (he 0 0).2.1
  unfold Ring.needs
  split <;> omega

/-- A ring with an allocation has a block of words. -/
theorem Ring.capacity_of_size (h : 1 ≤ r.size) : 10 ≤ r.capacity := by
  have : r.size * 1 ≤ r.capacity := Nat.mul_le_mul_left _ (by decide)
  simp only [Ring.capacity, Config.blockWords]
  omega

/-- Making room does not change whether a MARK is due, but for emptying the ring. -/
theorem Ring.makeRoom_needsMark {need n : Nat} :
    (r.makeRoom need n).1.needsMark v = true ↔ r.needsMark v = true ∨ (r.makeRoom need n).1.entries = [] := by
  obtain ⟨⟨k, hk⟩, -, -, -, -, -, -, href, hdue, hsince, -⟩ := Ring.makeRoom_drops need n r
  have hnil : r.entries = [] → (r.makeRoom need n).1.entries = [] := fun h => by rw [hk, h, List.drop_nil]
  rw [Ring.needsMark_iff_due, Ring.needsMark_iff_due, href, hdue, hsince]
  tauto

/-- Where making room succeeds, a write does not pass the capacity. -/
theorem Ring.makeRoom_write_occupancy (he : writable e) (hsize : 1 ≤ r.size) (hocc : r.occupancy ≤ r.capacity) {n : Nat}
    (h : (r.makeRoom (r.needs v e) n).2 = true) :
    ((r.makeRoom (r.needs v e) n).1.write v e).occupancy ≤ r.capacity := by
  have hroom := Ring.makeRoom_room _ _ r h
  have hcap := Ring.makeRoom_capacity (r.needs v e) n r
  have hless := Ring.makeRoom_occupancy (r.needs v e) n r
  have hmark := Ring.makeRoom_needsMark (r := r) (v := v) (need := r.needs v e) (n := n)
  rw [Ring.write_occupancy _ v e fun d => (he d 0).1]
  generalize (r.makeRoom (r.needs v e) n).1 = m at *
  by_cases hnil : m.entries = []
  · have := Ring.needs_le (r := m) (v := v) he
    have := Ring.capacity_of_size hsize
    simp only [Ring.occupancy, hnil, wordsOf_nil]
    omega
  · have hneeds : m.needs v e = r.needs v e := by
      unfold Ring.needs
      rw [show m.needsMark v = r.needsMark v from Bool.eq_iff_iff.mpr (by simpa [hnil] using hmark)]
    rw [hneeds]
    unfold Ring.room at hroom
    omega

/-! ## The youngest entries -/

theorem headStamp_append {l m : List Entry} (h : l ≠ []) : headStamp (l ++ m) = headStamp l := by
  obtain ⟨x, l, rfl⟩ := List.exists_cons_of_ne_nil h
  cases x <;> rfl

/-- Room made and the entry written: the youngest entries stay (R135). -/
theorem Ring.keepsYoungest_makeRoom (hhead : ∀ x ∈ r.entries.head?, x.isMark = true) (n : Nat) :
    keepsYoungest r ((r.makeRoom (r.needs v e) n).1.write v e) v e := by
  obtain ⟨-, -, -, -, -, -, -, href, hdue, hsince, -⟩ := Ring.makeRoom_drops (r.needs v e) n r
  obtain ⟨k, -, hentries, htrig, hheadk, hhead0, -, hmark, hleast⟩ := Ring.makeRoom_groups (r.needs v e) n r
  have hneeds := Ring.makeRoom_needsMark (r := r) (v := v) (need := r.needs v e) (n := n)
  have hfixed := ((r.makeRoom (r.needs v e) n).1.write_fixed v e)
  generalize (r.makeRoom (r.needs v e) n).1 = m at *
  obtain ⟨-, -, -, -, -, -, -, hwtrig, -⟩ := hfixed
  rw [hentries] at hneeds
  refine ⟨k, r.needsMark v, m.needsMark v, Ring.needsMark_iff_due r v, hneeds, ?_⟩
  have hfirst : ∀ x ∈ (r.entries.drop k).head?, x.isMark = true := by
    rcases Nat.eq_zero_or_pos k with rfl | hpos
    · simpa using hhead
    · exact hmark hpos
  have hleast' : ∀ j < k, (∀ x ∈ (r.entries.drop j).head?, x.isMark = true) →
      r.capacity < wordsOf (r.entries.drop j) + (e 0).words + (if r.needsMark v = true then 3 else 0) :=
    fun j hj hx => by
      have := hleast j hj hx
      unfold Ring.needs at this
      omega
  cases hm : m.needsMark v with
  | true =>
    rw [Ring.write_marked m v e hm]
    refine ⟨by simp [hentries], rfl, rfl, rfl, fun hk => ?_, fun hk hne => ?_, htrig, hfirst, hleast'⟩
    · by_cases hnil : r.entries.drop k = []
      · simp [hentries, hnil, headStamp]
      · have hpos : 0 < k := hk.resolve_right fun h => hnil (by rw [h, List.drop_nil])
        simp [hentries, hnil, headStamp_append hnil, hheadk hpos]
    · subst hk
      simp [hentries, hne, hhead0 rfl hne]
  | false =>
    obtain ⟨-, ref, hmref, -⟩ := Ring.reference_of_needsMark hm
    have hne : r.entries.drop k ≠ [] := fun h => by simp [hneeds.mpr (.inr h)] at hm
    have hmdue : m.markDue = false := by
      have := mt (Ring.needsMark_iff_due m v).mpr (by simp [hm])
      simpa using fun h => this (.inr (.inl h))
    rw [Ring.write_plain m v ref e hm hmref]
    refine ⟨by simp [hentries, ← href, hmref], by simp [← href], hmdue, by simp [← hsince], fun hk => ?_,
      fun hk hne => ?_,
      htrig, hfirst, hleast'⟩
    · have hpos : 0 < k := hk.resolve_right fun h => hne (by rw [h, List.drop_nil])
      simp only [hentries, headStamp_append hne]
      exact hheadk hpos
    · subst hk
      exact hhead0 rfl hne

/-! ## Offers to a WINDOW ring -/

/-- Making room with a turn for each entry fails only where the TRIG group stands oldest and the room is short (R137).
-/
theorem Ring.makeRoom_fails {need n : Nat} (hn : r.entries.length ≤ n) (hcap : need ≤ r.capacity)
    (h : (r.makeRoom need n).2 = false) :
    (r.makeRoom need n).1.trigOldest = true ∧
      (r.makeRoom need n).1.capacity < (r.makeRoom need n).1.occupancy + need := by
  induction n generalizing r with
  | zero =>
    have hnil : r.entries = [] := by simpa using hn
    simp [Ring.makeRoom, Ring.room, Ring.occupancy, hnil] at h
    omega
  | succ n ih =>
    unfold Ring.makeRoom at h ⊢
    split
    · next hroom => simp [hroom] at h
    · next hroom =>
      rw [if_neg hroom] at h
      split
      · next htrig =>
        refine ⟨htrig, ?_⟩
        dsimp only
        unfold Ring.room at hroom
        omega
      · next htrig =>
        rw [if_neg htrig] at h
        refine ih ?_ hcap h
        cases hl : r.entries with
        | nil => simp [Ring.dropGroup, hl]
        | cons x l =>
          have := oldestGroup_length x l
          rw [hl, List.length_cons] at hn
          simp only [Ring.dropGroup, hl, List.length_drop, List.length_cons]
          omega

/-- The room made for an entry with stamp v. -/
def Ring.roomFor (r : Ring) (v : Stamp) (e : Int → Entry) : Ring × Bool := r.makeRoom (r.needs v e) r.entries.length

/-- The ring with the room made and the entry written. -/
def Ring.rewritten (r : Ring) (v : Stamp) (e : Int → Entry) : Ring := (r.roomFor v e).1.write v e

theorem Ring.offerWindow_full (h : (r.roomFor v e).2 = false) :
    r.offerWindow v e = ({ (r.roomFor v e).1 with state := .frozen, truncated := true }, true) := by
  unfold Ring.roomFor at h ⊢
  simp [Ring.offerWindow, h]

theorem Ring.offerWindow_write (h : (r.roomFor v e).2 = true) (hs : r.state ≠ .post) :
    r.offerWindow v e = (r.rewritten v e, false) := by
  unfold Ring.roomFor at h
  simp [Ring.offerWindow, h, hs, Ring.rewritten, Ring.roomFor]

theorem Ring.rewritten_fixed (r : Ring) (v : Stamp) (e : Int → Entry) :
    (r.rewritten v e).mode = r.mode ∧ (r.rewritten v e).base = r.base ∧ (r.rewritten v e).size = r.size ∧
      (r.rewritten v e).post = r.post ∧ (r.rewritten v e).priority = r.priority ∧
      (r.rewritten v e).state = r.state ∧ (r.rewritten v e).dropped = r.dropped ∧
      (r.rewritten v e).written = r.written ∧ (r.rewritten v e).truncated = r.truncated ∧
      (r.rewritten v e).stopped = r.stopped := by
  obtain ⟨-, hmode, hbase, hsize, hpost, hprio, hstate, -, -, -, hdrop, hwritten, htrunc, hstop⟩ :=
    Ring.makeRoom_drops (r.needs v e) r.entries.length r
  obtain ⟨wmode, wbase, wsize, wpost, wprio, wstate, wdrop, -, wwritten, wtrunc, wstop⟩ :=
    (r.roomFor v e).1.write_fixed v e
  exact ⟨wmode.trans hmode, wbase.trans hbase, wsize.trans hsize, wpost.trans hpost, wprio.trans hprio,
    wstate.trans hstate, wdrop.trans hdrop, wwritten.trans hwritten, wtrunc.trans htrunc, wstop.trans hstop⟩

theorem Ring.offerWindow_post (h : (r.roomFor v e).2 = true) (hs : r.state = .post) :
    r.offerWindow v e =
      if r.post ≤ r.written + 1 then ({ r.rewritten v e with written := r.written + 1, state := .frozen }, true)
      else ({ r.rewritten v e with written := r.written + 1 }, false) := by
  have hwritten : (r.rewritten v e).written = r.written := (r.rewritten_fixed v e).2.2.2.2.2.2.2.1
  unfold Ring.rewritten Ring.roomFor at hwritten
  unfold Ring.roomFor at h
  simp [Ring.offerWindow, h, hs, Ring.rewritten, Ring.roomFor, hwritten]

/-- A RUNNING ring holds no TRIG entry, so the room for an entry can be made (R135). -/
theorem Ring.roomFor_succeeds (he : writable e) (hsize : 1 ≤ r.size) (htrig : r.trig = none) :
    (r.roomFor v e).2 = true :=
  Ring.makeRoom_succeeds _ _ r htrig le_rfl ((Ring.needs_le he).trans (Ring.capacity_of_size hsize))

theorem Ring.rewritten_keepsYoungest (hs : r.sound) (hmode : r.mode = .window) :
    keepsYoungest r (r.rewritten v e) v e := Ring.keepsYoungest_makeRoom (hs.2.2.2.1 hmode) _

theorem Ring.rewritten_sound (hs : r.sound) (hsize : 1 ≤ r.size) (he : writable e) (h : (r.roomFor v e).2 = true) :
    (r.rewritten v e).sound := by
  obtain ⟨hocc, hchain, hhead⟩ := Ring.sound_iff.mp hs
  refine Ring.sound_iff.mpr ⟨?_, Ring.write_chained (Ring.makeRoom_chained hchain) he,
    Ring.write_headed (Ring.makeRoom_headed hhead)⟩
  rw [show (r.rewritten v e).capacity = r.capacity by simp only [Ring.capacity, (r.rewritten_fixed v e).2.2.1]]
  exact Ring.makeRoom_write_occupancy he hsize hocc h

theorem Ring.roomFor_sound (hs : r.sound) : (r.roomFor v e).1.sound := by
  obtain ⟨hocc, hchain, hhead⟩ := Ring.sound_iff.mp hs
  refine Ring.sound_iff.mpr ⟨?_, Ring.makeRoom_chained hchain, Ring.makeRoom_headed hhead⟩
  unfold Ring.roomFor
  rw [Ring.makeRoom_capacity]
  exact (Ring.makeRoom_occupancy _ _ r).trans hocc

theorem Ring.rewritten_trig (h : r.trig = none) : (r.rewritten v e).trig = none := by
  obtain ⟨k, -, -, htrig, -⟩ := Ring.makeRoom_groups (r.needs v e) r.entries.length r
  rw [Ring.rewritten, Ring.roomFor, (Ring.write_fixed _ v e).2.2.2.2.2.2.2.1, htrig, h]
  rfl

theorem Ring.size_of_window (hp : r.placed) (hmode : r.mode = .window) : 1 ≤ r.size := by
  simp only [Ring.placed, hmode] at hp
  exact hp.1

theorem Ring.trig_of_running (hp : r.placed) (hmode : r.mode = .window) (hrun : r.state = .running) :
    r.trig = none := by
  simp only [Ring.placed, hmode] at hp
  exact hp.2.2 hrun

theorem Ring.placed_window (hmode : w.mode = .window) (hsize : 1 ≤ w.size)
    (hstate : w.state = .ready ∨ w.state = .running ∨ w.state = .post ∨ w.state = .frozen)
    (htrig : w.state = .running → w.trig = none) : w.placed := by
  simp only [Ring.placed, hmode]
  exact ⟨hsize, hstate, htrig⟩

theorem Ring.state_of_window (hp : r.placed) (hmode : r.mode = .window) :
    r.state = .ready ∨ r.state = .running ∨ r.state = .post ∨ r.state = .frozen := by
  simp only [Ring.placed, hmode] at hp
  exact hp.2.1

/-- An offer keeps a WINDOW ring sound, in its mode and its allocation. -/
theorem Ring.offerWindow_keeps (hs : r.sound) (hp : r.placed) (hmode : r.mode = .window) (he : writable e) :
    (r.offerWindow v e).1.sound ∧ (r.offerWindow v e).1.placed ∧ (r.offerWindow v e).1.mode = .window ∧
      (r.offerWindow v e).1.base = r.base ∧ (r.offerWindow v e).1.size = r.size := by
  have hsize := Ring.size_of_window hp hmode
  obtain ⟨wmode, wbase, wsize, -, -, wstate, -⟩ := r.rewritten_fixed v e
  rw [hmode] at wmode
  cases h : (r.roomFor v e).2 with
  | false =>
    rw [Ring.offerWindow_full h]
    obtain ⟨-, mmode, mbase, msize, -⟩ := Ring.makeRoom_drops (r.needs v e) r.entries.length r
    refine ⟨Ring.roomFor_sound hs, Ring.placed_window (mmode.trans hmode) (msize ▸ hsize) (by simp) (by simp),
      mmode.trans hmode, mbase, msize⟩
  | true =>
    have hw := Ring.rewritten_sound (v := v) hs hsize he h
    by_cases hpost : r.state = .post
    · rw [Ring.offerWindow_post h hpost]
      split
      · exact ⟨hw, Ring.placed_window wmode (wsize ▸ hsize) (by simp) (by simp), wmode, wbase, wsize⟩
      · refine ⟨hw, Ring.placed_window wmode (wsize ▸ hsize) (by simp [wstate, hpost]) ?_, wmode, wbase, wsize⟩
        simp [wstate, hpost]
    · rw [Ring.offerWindow_write h hpost]
      refine ⟨hw, Ring.placed_window wmode (wsize ▸ hsize) ?_ ?_, wmode, wbase, wsize⟩
      · rw [wstate]
        exact Ring.state_of_window hp hmode
      · rw [wstate]
        exact fun hrun => Ring.rewritten_trig (Ring.trig_of_running hp hmode hrun)

theorem Ring.offerWindow_running (hs : r.sound) (hp : r.placed) (hmode : r.mode = .window) (he : writable e)
    (hrun : r.state = .running) :
    r.offerWindow v e = (r.rewritten v e, false) ∧ (r.rewritten v e).state = .running ∧
      keepsYoungest r (r.rewritten v e) v e ∧
      (r.occupancy + 10 ≤ r.capacity → ∃ m, (r.rewritten v e).entries = r.entries ++ m) := by
  have hroom := Ring.roomFor_succeeds (v := v) he (Ring.size_of_window hp hmode) (Ring.trig_of_running hp hmode hrun)
  refine ⟨Ring.offerWindow_write hroom (by simp [hrun]), ?_, Ring.rewritten_keepsYoungest hs hmode, fun henough => ?_⟩
  · rw [(r.rewritten_fixed v e).2.2.2.2.2.1, hrun]
  · have hfits : r.needs v e ≤ r.room := by
      have := Ring.needs_le (r := r) (v := v) he
      unfold Ring.room
      omega
    obtain ⟨d, hd⟩ := r.write_entries v e
    exact ⟨_, by rw [Ring.rewritten, Ring.roomFor, Ring.makeRoom_enough _ _ r hfits, hd, List.append_assoc]⟩

/-- Settles O39: an offer either writes after making room, or freezes the ring where the TRIG group stands oldest
without the room. -/
theorem windowRingKeepsTheYoungest : Obligations.WindowRingKeepsTheYoungest := by
  intro r w v e frozen hs hp hmode he ho
  have hsize := Ring.size_of_window hp hmode
  obtain ⟨hwsound, hwplaced, hwmode, -, hwsize⟩ := Ring.offerWindow_keeps (v := v) hs hp hmode he
  rw [← ho] at hwsound hwplaced hwmode hwsize
  refine ⟨hwsound, hwplaced, hwmode, hwsize, fun hrun => ?_, fun hpost => ?_⟩
  · obtain ⟨hoff, hstate, hyoung, hall⟩ := Ring.offerWindow_running (v := v) hs hp hmode he hrun
    obtain ⟨rfl, rfl⟩ := Prod.mk.inj (ho.trans hoff)
    exact ⟨rfl, hstate, hyoung, hall⟩
  · obtain ⟨-, -, -, -, -, wstate, -, -, wtrunc, -⟩ := r.rewritten_fixed v e
    have hyoung := Ring.rewritten_keepsYoungest (v := v) (e := e) hs hmode
    cases h : (r.roomFor v e).2 with
    | false =>
      obtain ⟨rfl, rfl⟩ := Prod.mk.inj (ho.trans (Ring.offerWindow_full h))
      obtain ⟨⟨k, hk⟩, -, -, -, -, -, -, -, -, -, -, mwritten, -⟩ :=
        Ring.makeRoom_drops (r.needs v e) r.entries.length r
      obtain ⟨htrig, hshort⟩ := Ring.makeRoom_fails le_rfl
        ((Ring.needs_le he).trans (Ring.capacity_of_size hsize)) h
      refine ⟨by simp, fun _ => ⟨rfl, .inl ⟨rfl, mwritten, ⟨k, hk⟩, htrig, ?_⟩⟩⟩
      rw [Nat.add_assoc]
      exact hshort
    | true =>
      have hoff := Ring.offerWindow_post h hpost
      split at hoff
      · next hlast =>
        obtain ⟨rfl, rfl⟩ := Prod.mk.inj (ho.trans hoff)
        exact ⟨by simp, fun _ => ⟨rfl, .inr ⟨wtrunc, rfl, hlast, hyoung⟩⟩⟩
      · next hmore =>
        obtain ⟨rfl, rfl⟩ := Prod.mk.inj (ho.trans hoff)
        exact ⟨fun _ => ⟨wstate.trans hpost, rfl, Nat.not_le.mp hmore, hyoung⟩, by simp⟩

end

end Sys2Proof.Machine
end

section
/-! The trigger sequence and its TRIG entries (6.4, 7.5), and the capture offers (7.4, 7.6). -/

namespace Sys2Proof.Machine

set_option Elab.async false

open Sys2Proof.Claims

section
variable {r w : Ring} {v : Stamp} {c : Cause}

/-! ## The TRIG entry (R136) -/

/-- The ring with the room made and the TRIG entry written, before it enters POST or freezes. -/
def Ring.withTrig (r : Ring) (v : Stamp) (c : Cause) : Ring := r.rewritten v fun d => .trig d c

theorem Ring.trigger_eq (r : Ring) (v : Stamp) (c : Cause) :
    r.trigger v c =
      { r.withTrig v c with
        trig := some ((r.withTrig v c).entries.length - 1), written := 0
        state := if r.post = 0 then .frozen else .post } := rfl

theorem keepsYoungest_markDue {e : Int → Entry} (h : keepsYoungest r w v e) : w.markDue = false := by
  obtain ⟨_, _, _, _, _, _, _, hdue, _⟩ := h
  exact hdue

/-- What a write leaves does not depend on where the TRIG entry is said to stand, if there was none. -/
theorem keepsYoungest_withoutTrig {e : Int → Entry} (h : keepsYoungest r w v e) (hr : r.trig = none) {u : Ring}
    (hu : u.entries = w.entries ∧ u.reference = w.reference ∧ u.markDue = w.markDue ∧ u.sinceMark = w.sinceMark ∧
      u.head = w.head ∧ u.trig = none) : keepsYoungest r u v e := by
  obtain ⟨hentries, href, hdue, hsince, hhead, htrig⟩ := hu
  obtain ⟨k, due, marks, h1, h2, h3, h4, h5, h6, h7, h8, -, h10, h11⟩ := h
  refine ⟨k, due, marks, h1, h2, ?_⟩
  rw [hentries, href, hdue, hsince, hhead, htrig, hr]
  exact ⟨h3, h4, h5, h6, h7, h8, rfl, h10, h11⟩

theorem Ring.trigger_keepsYoungest (hs : r.sound) (hp : r.placed) (hmode : r.mode = .window)
    (hrun : r.state = .running) : keepsYoungest r { r.trigger v c with trig := none } v (fun d => .trig d c) :=
  keepsYoungest_withoutTrig (Ring.rewritten_keepsYoungest hs hmode) (Ring.trig_of_running hp hmode hrun)
    ⟨rfl, rfl, rfl, rfl, rfl, rfl⟩

theorem Ring.trigger_sound (hs : r.sound) (hp : r.placed) (hmode : r.mode = .window) (hrun : r.state = .running) :
    (r.trigger v c).sound := by
  have hsize := Ring.size_of_window hp hmode
  exact Ring.rewritten_sound hs hsize (writable_trig c)
    (Ring.roomFor_succeeds (writable_trig c) hsize (Ring.trig_of_running hp hmode hrun))

theorem Ring.trigger_fields (hs : r.sound) (hmode : r.mode = .window) :
    r.trigger v c =
      { r with
        entries := (r.trigger v c).entries, reference := (r.trigger v c).reference, head := (r.trigger v c).head
        markDue := false, sinceMark := (r.trigger v c).sinceMark, trig := some ((r.trigger v c).entries.length - 1)
        written := 0, state := if r.post = 0 then .frozen else .post } := by
  have hdue := keepsYoungest_markDue (Ring.rewritten_keepsYoungest (v := v) (e := fun d => .trig d c) hs hmode)
  obtain ⟨hmode', hbase, hsize, hpost, hprio, -, hdrop, -, htrunc, hstop⟩ := r.rewritten_fixed v fun d => .trig d c
  rw [Ring.trigger_eq, Ring.withTrig]
  generalize r.rewritten v (fun d => .trig d c) = u at *
  cases u
  simp_all

theorem Ring.trigger_placed (hp : r.placed) (hmode : r.mode = .window) : (r.trigger v c).placed := by
  obtain ⟨wmode, -, wsize, -⟩ := r.rewritten_fixed v fun d => .trig d c
  refine Ring.placed_window (wmode.trans hmode) (wsize.symm ▸ Ring.size_of_window hp hmode) ?_ ?_ <;>
    · simp only [Ring.trigger_eq]
      split <;> simp

end

/-! ## The trigger sequence (R120) -/

section
variable {s : State} {v : Stamp} {c : Cause}

/-- The state after the trigger's own steps, before it is judged whether the run is over. -/
def triggeredRun (v : Stamp) (c : Cause) (s : State) : State :=
  setAlert .triggered
    { s with
      tsq :=
        { s.tsq.stopCounters with
          stamp := some v, cause := some c, run := .triggered, post := s.cst.postSet }
      cst := s.cst.trigger v c }

theorem triggerRun_eq : triggerRun v c s = finishRun (triggeredRun v c s) := rfl

theorem Tsq.allFrozen_iff (u : Tsq) : u.allFrozen = true ↔ ∀ i : Fin 4, (u.post[i]'i.isLt) ≠ some false := by
  simp only [Tsq.allFrozen, List.all_eq_true, Vector.mem_toList_iff, bne_iff_ne]
  refine ⟨fun h i => h _ (by simp), fun h x hx => ?_⟩
  obtain ⟨i, hi, rfl⟩ := Vector.mem_iff_getElem.mp hx
  exact h ⟨i, hi⟩

theorem finishRun_frozen {s : State} (h : s.tsq.allFrozen = true) :
    finishRun s = setAlert .done { s with tsq := { s.tsq with run := .done } } := if_pos h

theorem finishRun_open {s : State} (h : s.tsq.allFrozen = false) : finishRun s = s := if_neg (by simp [h])

theorem Cst.postSet_get (u : Cst) (i : Fin 4) :
    (u.postSet[i]'i.isLt) =
      if (u.rings[i]'i.isLt).mode = .window ∧ (u.rings[i]'i.isLt).state = .running
        then some ((u.rings[i]'i.isLt).post == 0) else none := by
  unfold Cst.postSet
  rw [mapEach_get]

theorem Cst.trigger_get (u : Cst) (v : Stamp) (c : Cause) (i : Fin 4) :
    ((u.trigger v c).rings[i]'i.isLt) =
      if (u.rings[i]'i.isLt).mode = .window ∧ (u.rings[i]'i.isLt).state = .running
        then (u.rings[i]'i.isLt).trigger v c else (u.rings[i]'i.isLt) := by
  unfold Cst.trigger
  rw [mapAll_get]

/-- No ring of the post set is left to wait for: the run is DONE at once. -/
theorem triggeredRun_allFrozen :
    (triggeredRun v c s).tsq.allFrozen = true ↔
      ∀ i : Fin 4, (s.cst.rings[i]'i.isLt).mode = .window → (s.cst.rings[i]'i.isLt).state = .running →
        (s.cst.rings[i]'i.isLt).post = 0 := by
  have hpost (i : Fin 4) : ((triggeredRun v c s).tsq.post[i]'i.isLt) ≠ some false ↔
      ((s.cst.rings[i]'i.isLt).mode = .window → (s.cst.rings[i]'i.isLt).state = .running →
        (s.cst.rings[i]'i.isLt).post = 0) := by
    rw [show ((triggeredRun v c s).tsq.post[i]'i.isLt) = (s.cst.postSet[i]'i.isLt) from rfl, Cst.postSet_get]
    split
    · next h => simp [h.1, h.2, -Fin.getElem_fin]
    · next h => exact iff_of_true (by simp) fun h1 h2 => absurd ⟨h1, h2⟩ h
  rw [Tsq.allFrozen_iff]
  exact forall_congr' hpost

theorem triggerRun_done
    (h : ∀ i : Fin 4, (s.cst.rings[i]'i.isLt).mode = .window → (s.cst.rings[i]'i.isLt).state = .running →
      (s.cst.rings[i]'i.isLt).post = 0) :
    triggerRun v c s =
      setAlert .done
        { triggeredRun v c s with tsq := { (triggeredRun v c s).tsq with run := .done } } :=
  finishRun_frozen (triggeredRun_allFrozen.mpr h)

theorem triggerRun_waits {i : Fin 4} (hmode : (s.cst.rings[i]'i.isLt).mode = .window)
    (hrun : (s.cst.rings[i]'i.isLt).state = .running)
    (hpost : (s.cst.rings[i]'i.isLt).post ≠ 0) : triggerRun v c s = triggeredRun v c s :=
  finishRun_open (Bool.not_eq_true _ ▸ mt triggeredRun_allFrozen.mp fun h => hpost (h i hmode hrun))

/-- The run over or not, the trigger's own registers are as its steps leave them. -/
theorem finishRun_tsq (s : State) :
    (finishRun s).tsq.stamp = s.tsq.stamp ∧ (finishRun s).tsq.cause = s.tsq.cause ∧
      (finishRun s).tsq.level = s.tsq.level ∧ (finishRun s).tsq.levels = s.tsq.levels ∧
      (finishRun s).tsq.counters = s.tsq.counters ∧ (finishRun s).tsq.post = s.tsq.post := by
  unfold finishRun
  split <;> simp

theorem alertPending_setAlert (a : AlertSource) (s : State) (i : Fin 16) :
    ((setAlert a s).slu.alerts[i]'i.isLt).pending = ((s.slu.alerts[i]'i.isLt).pending || decide (a.index = i)) := by
  simp only [setAlert, Slu.raise, put_get]
  by_cases h : a.index = i
  · simp [h]
  · simp [h]

theorem alert_setAlert_other {a : AlertSource} {i : Fin 16} (h : a.index ≠ i) (s : State) :
    ((setAlert a s).slu.alerts[i]'i.isLt) = (s.slu.alerts[i]'i.isLt) := by
  simp only [setAlert, Slu.raise, put_get, if_neg h]

theorem finishRun_pending {s : State} {i : Fin 16} (h : (s.slu.alerts[i]'i.isLt).pending = true) :
    ((finishRun s).slu.alerts[i]'i.isLt).pending = true := by
  unfold finishRun
  split
  · rw [alertPending_setAlert, h, Bool.true_or]
  · exact h

/-- Settles O35: the registers by the trigger's steps, the rings by the write of the TRIG entry. -/
theorem triggerSequence : Obligations.TriggerSequence := by
  refine ⟨?_, ?_⟩
  · rintro s t v cause rfl
    obtain ⟨hstamp, hcause, hlevel, hlevels, hcounters, hpost⟩ := finishRun_tsq (triggeredRun v cause s)
    rw [← triggerRun_eq] at hstamp hcause hlevel hlevels hcounters hpost
    refine ⟨hstamp, hcause, hlevel, hlevels, fun i => ?_, fun i => ?_, fun i => ?_, fun i => rfl, ?_, fun h => ?_,
      fun i hmode hrun hne => ?_, ?_, by simp, by simp, by simp, by simp, by simp, by simp, by simp⟩
    · rw [hcounters]
      exact mapAll_get _ _ i
    · rw [show (triggerRun v cause s).cst = s.cst.trigger v cause by simp [triggerRun_eq, triggeredRun]]
      exact Cst.trigger_get _ _ _ i
    · rw [hpost]
      exact Cst.postSet_get _ i
    · have hset : (triggeredRun v cause s).slu.alerts[(0 : Fin 16)].pending = true := by
        rw [triggeredRun, alertPending_setAlert]
        exact Bool.or_true _
      exact finishRun_pending hset
    · rw [triggerRun_done h]
      exact ⟨rfl, (alertPending_setAlert _ _ (1 : Fin 16)).trans (Bool.or_true _)⟩
    · rw [triggerRun_waits hmode hrun hne]
      exact ⟨rfl, alert_setAlert_other (a := .triggered) (i := 1) (by decide) _⟩
    · simp [triggerRun_eq, triggeredRun]
  · rintro r w v cause hs hp hmode hrun rfl
    exact ⟨Ring.trigger_keepsYoungest hs hp hmode hrun, Ring.trigger_sound hs hp hmode hrun,
      Ring.trigger_fields hs hmode⟩

end

end Sys2Proof.Machine
end

section
/-! Records on their way (1.2, 4.2, 4.5, 5.1): what a command keeps of the holding FIFOs, the record queue and the hit
counts, and the open records of the buses and consoles. -/

namespace Sys2Proof.Machine

set_option Elab.async false

open Sys2Proof.Claims

/-! ## Holding FIFOs -/

section
variable {A : Record → Prop} {h : Hold} {r : Record}

/-- Every record of a holding FIFO, placed or waiting, is in A. -/
def Hold.all (A : Record → Prop) (h : Hold) : Prop := (∀ r ∈ h.fifo, A r) ∧ ∀ r ∈ h.waiting, A r

/-- A does not look at the lost count a record carries. -/
def ignoresLost (A : Record → Prop) : Prop := ∀ (r : Record) n, A r → A { r with lost := n }

theorem ignoresLost_bodyWithin : ignoresLost Record.bodyWithin := fun _ _ h => h

theorem Hold.all_place (hA : ignoresLost A) (hh : h.all A) (hr : A r) : (h.place r).all A := by
  refine ⟨fun x hx => ?_, hh.2⟩
  simp only [Hold.place, List.mem_append, List.mem_singleton] at hx
  rcases hx with hx | rfl
  · exact hh.1 x hx
  · exact hA r _ hr

theorem Hold.all_accept (hA : ignoresLost A) (hh : h.all A) (hr : A r) : (h.accept r).all A := by
  unfold Hold.accept
  split
  · exact Hold.all_place hA hh hr
  · split
    · refine ⟨hh.1, fun x hx => ?_⟩
      simp only [List.mem_append, List.mem_singleton] at hx
      rcases hx with hx | rfl
      · exact hh.2 x hx
      · exact hr
    · exact hh

theorem Hold.all_release (hA : ignoresLost A) (hh : h.all A) : h.release.all A := by
  have hfifo : ∀ x ∈ h.fifo.drop 1, A x := fun x hx => hh.1 x (List.mem_of_mem_drop hx)
  unfold Hold.release
  dsimp only
  split
  · next g gs hw =>
    refine Hold.all_place hA ⟨hfifo, fun x hx => hh.2 x ?_⟩ (hh.2 g ?_) <;> simp_all
  · exact ⟨hfifo, hh.2⟩

theorem Hold.within_place (hh : h.within) (hroom : h.fifo.length < 4) : (h.place r).within := by
  obtain ⟨-, hlost, hfull⟩ := hh
  simp only [Hold.within, Hold.place, List.length_append, List.length_singleton]
  refine ⟨by omega, by omega, fun hw => ?_⟩
  have := hfull hw
  omega

theorem Hold.within_accept (hh : h.within) : (h.accept r).within := by
  unfold Hold.accept
  split
  · next hroom => exact Hold.within_place hh hroom
  · next hroom =>
    obtain ⟨hlen, hlost, hfull⟩ := hh
    simp only [Config.fifoPlaces] at hroom
    split
    · exact ⟨hlen, hlost, fun _ => by dsimp only; omega⟩
    · exact ⟨hlen, by dsimp only; omega, hfull⟩

theorem Hold.within_release (hh : h.within) (hne : h.fifo ≠ []) : h.release.within := by
  obtain ⟨hlen, hlost, hfull⟩ := hh
  have hpos := List.length_pos_iff.mpr hne
  unfold Hold.release
  dsimp only
  split
  · next g gs hw =>
    have hfour := hfull (by simp [hw])
    simp only [Hold.within, Hold.place, List.length_append, List.length_singleton, List.length_drop]
    exact ⟨by omega, by omega, fun _ => by omega⟩
  · next hw =>
    simp only [Hold.within, List.length_drop]
    exact ⟨by omega, hlost, fun hne' => absurd hw hne'⟩

/-- What every FIFO's accepting keeps, reporting keeps of every FIFO. -/
theorem Reported.hold_each {s t : State} {P : Hold → Prop} (hr : Reported A s t)
    (hP : ∀ h r, A r → P h → P (h.accept r)) (hs : ∀ i : Fin 33, P (s.hold[i]'i.isLt)) : ∀ i :
      Fin 33, P (t.hold[i]'i.isLt) := by
  refine hr.hold_keeps (P := fun v => ∀ i : Fin 33, P (v[i]'i.isLt)) (fun v r hAr hv i => ?_) hs
  rw [put_get]
  split
  · exact hP _ _ hAr (hv _)
  · exact hv i

theorem ReportedServing.hold_each {s t : State} {P : Hold → Prop} (hr : ReportedServing A s t)
    (hP : ∀ h r, A r → P h → P (h.accept r)) (hs : ∀ i : Fin 33, P (s.hold[i]'i.isLt)) : ∀ i :
      Fin 33, P (t.hold[i]'i.isLt) := by
  rcases hr with hr | ⟨q, rest, -, hr⟩
  · exact hr.hold_each hP hs
  · exact hr.hold_each (s := taken rest s) hP hs

end

/-! ## Admission -/

section
variable {s t : State}

/-- What is admitted is the oldest record of a source, to a queue with room. -/
theorem admits_some {i : Fin 33} (h : s.admits = some i) : s.cle.queue.length < 64 ∧ (s.hold[i]'i.isLt).fifo ≠ [] := by
  unfold State.admits at h
  split at h
  · next hroom => exact ⟨hroom, by simpa using List.find?_some h⟩
  · cases h

theorem admitNext_of_admits {i : Fin 33} (h : s.admits = some i) :
    (admitNext s).cle.queue = s.cle.queue ++ (s.hold[i]'i.isLt).fifo.take 1 ∧ (admitNext s).cle.hits = s.cle.hits ∧
      (admitNext s).hold = put s.hold i (s.hold[i]'i.isLt).release := by
  simp only [admitNext, h, and_self]

/-! ## The record queue and the hit counts -/

/-- The hit counts are within 2^32 - 1. -/
def Cle.hitsWithin (u : Cle) : Prop := ∀ i : Fin 65, (u.hits[i]'i.isLt) ≤ 2 ^ 32 - 1

/-- The table of w may differ from that of u; the queue is the same, and hit counts within bounds stay so. -/
def Cle.retabled (u w : Cle) : Prop := w.queue = u.queue ∧ (u.hitsWithin → w.hitsWithin)

theorem Cle.retabled_refl (u : Cle) : u.retabled u := ⟨rfl, id⟩

theorem Cle.retabled.trans {u w x : Cle} (h : u.retabled w) (g : w.retabled x) : u.retabled x :=
  ⟨g.1.trans h.1, g.2 ∘ h.2⟩

theorem Cle.hitsWithin_zero {u : Cle} (h : u.hits = Vector.replicate 65 0) : u.hitsWithin := fun i => by
  rw [h, replicate_get]
  exact Nat.zero_le _

theorem Cle.hitsWithin_put {u w : Cle} {k : Fin 65} {n : Nat} (h : w.hits = put u.hits k n) (hn : n ≤ 2 ^ 32 - 1)
    (hu : u.hitsWithin) : w.hitsWithin := fun i => by
  rw [h, put_get]
  split
  · exact hn
  · exact hu i

theorem Cle.retabled_swap (u : Cle) : u.retabled u.swap := ⟨rfl, fun _ => Cle.hitsWithin_zero rfl⟩

theorem Cle.retabled_countHit (u : Cle) (d : Option (Fin 64)) : u.retabled (u.countHit d) :=
  ⟨rfl, Cle.hitsWithin_put rfl (Nat.min_le_left _ _)⟩

theorem Cle.retabled_writeActive (u : Cle) (i : Fin 64) (e : MatchEntry) : u.retabled (u.writeActive i e) :=
  ⟨rfl, Cle.hitsWithin_put rfl (Nat.zero_le _)⟩

theorem Cle.retabled_writeActiveDefault (u : Cle) (a : Action) : u.retabled (u.writeActiveDefault a) :=
  ⟨rfl, Cle.hitsWithin_put rfl (Nat.zero_le _)⟩

@[simp] theorem swapBanks_cle (s : State) : (swapBanks s).cle = s.cle.swap := rfl

theorem nextRecordCommit_retabled (s : State) : s.cle.retabled (nextRecordCommit s).cle := by
  unfold nextRecordCommit
  split
  · exact s.cle.retabled_swap
  · exact s.cle.retabled_refl

theorem performActions_retabled (a : Action) (r : Record) (s : State) : s.cle.retabled (performActions a r s).cle := by
  have hbefore : (classStage a r (alertStage a (verdictStage a r (offerStage a r s)))).cle = s.cle := by simp
  unfold performActions onClassCommit
  split
  · split
    · rw [swapBanks_cle, hbefore]
      exact s.cle.retabled_swap
    · rw [hbefore]
      exact s.cle.retabled_refl
  · rw [hbefore]
    exact s.cle.retabled_refl

/-- The classifier takes the oldest record of the queue, and changes nothing else but the table and its counts. -/
theorem classifyNext_retabled (s : State) :
    Cle.retabled { s.cle with queue := s.cle.queue.tail } (classifyNext s).cle := by
  unfold classifyNext
  split
  · next r rest hq =>
    rw [hq]
    exact (nextRecordCommit_retabled { s with cle := { s.cle with queue := rest } }).trans
      ((Cle.retabled_countHit _ _).trans (performActions_retabled _ _ _))
  · next hq =>
    rw [hq]
    exact ⟨hq, id⟩

theorem retabled_serveWhen {code fits handler} (h : ∀ q (u : State), u.cle.retabled (handler q u).cle) :
    s.cle.retabled (serveWhen code fits handler s).cle :=
  serveWhen_keeps (P := fun u => s.cle.retabled u.cle) s.cle.retabled_refl fun q rest _ _ _ => h q (taken rest s)

variable {q : Request}

theorem retabled_serveEntryWrite (q : Request) (s : State) : s.cle.retabled (serveEntryWrite q s).cle := by
  fun_cases serveEntryWrite <;> exact ⟨rfl, id⟩

theorem retabled_serveDefaultWrite (q : Request) (s : State) : s.cle.retabled (serveDefaultWrite q s).cle := by
  fun_cases serveDefaultWrite <;> exact ⟨rfl, id⟩

theorem retabled_serveEntryWriteDirect (q : Request) (s : State) :
    s.cle.retabled (serveEntryWriteDirect q s).cle := by
  unfold serveEntryWriteDirect
  split
  · exact s.cle.retabled_refl
  · split
    · exact s.cle.retabled_refl
    · exact s.cle.retabled_writeActive _ _

theorem retabled_serveDefaultWriteDirect (q : Request) (s : State) :
    s.cle.retabled (serveDefaultWriteDirect q s).cle := by
  unfold serveDefaultWriteDirect
  split
  · exact s.cle.retabled_refl
  · split
    · exact s.cle.retabled_refl
    · exact s.cle.retabled_writeActiveDefault _

theorem retabled_serveCommit (q : Request) (s : State) : s.cle.retabled (serveCommit q s).cle := by
  unfold serveCommit
  dsimp only
  split
  · exact s.cle.retabled_refl
  · split
    · exact s.cle.retabled_refl
    · split
      · exact ⟨rfl, fun _ => Cle.hitsWithin_zero rfl⟩
      · exact ⟨rfl, id⟩

theorem retabled_serveCommitCancel (q : Request) (s : State) : s.cle.retabled (serveCommitCancel q s).cle := by
  unfold serveCommitCancel
  split <;> exact ⟨rfl, id⟩

theorem retabled_serveArm (q : Request) (s : State) : s.cle.retabled (serveArm q s).cle := by
  unfold serveArm
  dsimp only
  split
  · split
    · exact s.cle.retabled_swap
    · exact s.cle.retabled_refl
  · exact s.cle.retabled_refl

/-- The commands that change the record queue, or reset it. -/
inductive MovesQueue : Instr → Prop
  | powerOnReset {straps} : MovesQueue (.powerOnReset straps)
  | softReset : MovesQueue .softReset
  | admission : MovesQueue .admission
  | classifyRecord : MovesQueue .classifyRecord

theorem exec_retabled_of_writes {c : Instr} (h : exec c s = .next t) (hw : WritesCle c)
    (hc : ¬ MovesQueue c) : s.cle.retabled t.cle := by
  cases hw
  case powerOnReset | softReset | admission | classifyRecord => exact absurd (by constructor) hc
  all_goals
    obtain rfl := Host.Outcome.next.inj h
    refine retabled_serveWhen fun q u => ?_
  case entryWrite => exact retabled_serveEntryWrite q u
  case defaultWrite => exact retabled_serveDefaultWrite q u
  case entryWriteDirect => exact retabled_serveEntryWriteDirect q u
  case defaultWriteDirect => exact retabled_serveDefaultWriteDirect q u
  case commit => exact retabled_serveCommit q u
  case commitCancel => exact retabled_serveCommitCancel q u
  case hitsClear => exact ⟨rfl, fun _ => Cle.hitsWithin_zero rfl⟩
  case arm => exact retabled_serveArm q u

theorem exec_retabled {c : Instr} (h : exec c s = .next t) (hc : ¬ MovesQueue c) : s.cle.retabled t.cle := by
  by_cases hw : WritesCle c
  · exact exec_retabled_of_writes h hw hc
  · rw [exec_cle h hw]
    exact s.cle.retabled_refl

end

/-! ## Open transaction records -/

section
variable {P : BusRecord → Prop} {s t : State}

/-- Every open transaction record satisfies P. -/
def State.busesHold (P : BusRecord → Prop) (s : State) : Prop := ∀ g :
    Fin 2, ∀ o ∈ (s.btu.buses[g]'g.isLt).openRecord, P o

/-- P holds of a record just opened, and is kept by its address and by every data byte (R61, R62). -/
structure KeptByBytes (P : BusRecord → Prop) : Prop where
  opened : ∀ t, P (openBusRecord t)
  addressed : ∀ {o} x, P o → P { o with address := x }
  added : ∀ {o} x, P o → P (o.addByte x)

theorem State.busesHold.of_btu (h : s.busesHold P) (e : t.btu = s.btu) : t.busesHold P := by
  unfold State.busesHold
  rw [e]
  exact h

theorem busesHold_setBus {g b} (h : s.busesHold P) (hb : ∀ o ∈ b.openRecord, P o) : (setBus g b s).busesHold P := by
  intro k o ho
  simp only [setBus, put_get] at ho
  split at ho
  · exact hb o ho
  · exact h k o ho

theorem busesHold_closeBus {g x} (h : s.busesHold P) : (closeBus g x s).busesHold P := by
  unfold closeBus
  dsimp only
  split
  · exact (busesHold_setBus h (by simp)).of_btu rfl
  · exact h

theorem busesHold_busStart {g} (k : KeptByBytes P) (h : s.busesHold P) : (busStart g s).busesHold P := by
  unfold busStart
  dsimp only
  (repeat' split)
  · next t0 _ _ =>
    refine busesHold_setBus (busesHold_closeBus (busesHold_setBus h (h g))) fun o ho => ?_
    obtain rfl : openBusRecord t0 = o := by simpa using ho
    exact k.opened t0
  all_goals exact h

theorem busesHold_busStop {g} (h : s.busesHold P) : (busStop g s).busesHold P := by
  unfold busStop
  dsimp only
  (repeat' split)
  · have hclosed := busesHold_closeBus (g := g) (x := false)
      (busesHold_setBus (g := g) (b := (s.btu.buses[g]'g.isLt).acceptData) h (h g))
    exact busesHold_setBus hclosed (hclosed g)
  all_goals exact h

theorem busesHold_busLineDeparture {g l} (h : s.busesHold P) : (busLineDeparture g l s).busesHold P := by
  have hline (f : LineFilter) : ∀ o ∈ ((s.btu.buses[g]'g.isLt).setLine l f).openRecord, P o := by cases l <;> exact h g
  unfold busLineDeparture busDataLow
  dsimp only
  (repeat' split)
  · exact busesHold_setBus h (h g)
  · exact h
  · exact h
  · exact busesHold_setBus h (hline _)
  · exact h

theorem busesHold_bitTaken {g} (h : s.busesHold P) : (bitTaken g s).busesHold P := by
  unfold bitTaken
  dsimp only
  (repeat' split)
  · exact busesHold_setBus h (h g)
  · exact h
  · exact busesHold_setBus h (h g)
  · exact h
  · exact busesHold_setBus h (h g)
  · exact h

theorem endByte_holds {b : Bus} (k : KeptByBytes P) (h : ∀ o ∈ b.openRecord, P o) :
    ∀ o ∈ b.endByte.openRecord, P o := by
  intro o ho
  unfold Bus.endByte at ho
  dsimp only at ho
  split at ho
  · obtain ⟨o', ho', rfl⟩ := Option.mem_map.mp ho
    exact k.addressed _ (h o' ho')
  · obtain ⟨o', ho', rfl⟩ := Option.mem_map.mp ho
    exact k.added _ (h o' ho')

theorem busesHold_busByteEnd {g} (k : KeptByBytes P) (h : s.busesHold P) : (busByteEnd g s).busesHold P := by
  unfold busByteEnd
  dsimp only
  split
  · exact busesHold_setBus h (endByte_holds k (h g))
  · exact h

theorem busesHold_stuckTimeout {g} (h : s.busesHold P) : (stuckTimeout g s).busesHold P := by
  unfold stuckTimeout
  dsimp only
  split
  · split
    · exact (busesHold_setBus h (by simp)).of_btu rfl
    · exact (busesHold_setBus h (by simp)).of_btu rfl
  · exact h

theorem busesHold_stuckEpisodeEnd {g} (h : s.busesHold P) : (stuckEpisodeEnd g s).busesHold P := by
  unfold stuckEpisodeEnd
  dsimp only
  split
  · exact busesHold_setBus h (h g)
  · exact h

theorem busesHold_serveBusConfig {q} (h : s.busesHold P) : (serveBusConfig q s).busesHold P := by
  unfold serveBusConfig
  (repeat' split)
  · exact h
  · exact (busesHold_setBus h (by simp [Bus.restart])).of_btu rfl
  · exact h

theorem State.busesHold.of_buses (h : s.busesHold P) (e : t.btu.buses = s.btu.buses) : t.busesHold P := by
  unfold State.busesHold
  rw [e]
  exact h

/-! ## Open text records -/

/-- Every open text record has at most 15 bytes. -/
def State.textsShort (s : State) : Prop := ∀ c : Fin 2, ∀ o ∈ (s.btu.consoles[c]'c.isLt).openRecord, o.bytes.length ≤ 15

theorem State.textsShort.of_consoles (h : s.textsShort) (e : t.btu.consoles = s.btu.consoles) : t.textsShort := by
  unfold State.textsShort
  rw [e]
  exact h

@[simp] theorem closeText_buses {r} : (closeText r s).btu.buses = s.btu.buses := by
  unfold closeText
  dsimp only
  split <;> rfl

@[simp] theorem addText_buses {r x f} : (addText r x f s).btu.buses = s.btu.buses := by
  unfold addText
  dsimp only
  split <;> simp

@[simp] theorem closeBus_consoles {g x} : (closeBus g x s).btu.consoles = s.btu.consoles := by
  unfold closeBus
  dsimp only
  split <;> rfl

theorem textsShort_setConsole {r c} (h : s.textsShort) (hc : ∀ o ∈ c.openRecord, o.bytes.length ≤ 15) :
    (setConsole r c s).textsShort := by
  intro k o ho
  simp only [setConsole, put_get] at ho
  split at ho
  · exact hc o ho
  · exact h k o ho

/-- After a closing no text record is open at the receiver, whatever was. -/
theorem closeText_openRecord {r} : ((closeText r s).btu.consoles[r]'r.isLt).openRecord = none := by
  unfold closeText
  dsimp only
  split
  · simp [setConsole, put_get_self, -Fin.getElem_fin]
  · assumption

theorem closeText_other {r k : Fin 2} (hk : r ≠ k) :
    ((closeText r s).btu.consoles[k]'k.isLt) = (s.btu.consoles[k]'k.isLt) := by
  unfold closeText
  dsimp only
  split
  · simp [setConsole, put_get_ne _ _ _ _ hk, -Fin.getElem_fin]
  · rfl

theorem textsShort_closeText {r} (h : ∀ k, r ≠ k → ∀ o ∈ (s.btu.consoles[k]'k.isLt).openRecord, o.bytes.length ≤ 15) :
    (closeText r s).textsShort := by
  intro k o ho
  by_cases hk : r = k
  · subst hk
    rw [closeText_openRecord] at ho
    cases ho
  · rw [closeText_other hk] at ho
    exact h k hk o ho

theorem textsShort_addText {r x f} (h : s.textsShort) : (addText r x f s).textsShort := by
  unfold addText
  dsimp only
  split
  · refine textsShort_closeText fun k hk o ho => h k o ?_
    simpa [setConsole, put_get_ne _ _ _ _ hk, -Fin.getElem_fin] using ho
  · next hopen =>
    refine textsShort_setConsole h fun o ho => ?_
    obtain rfl : (s.btu.consoles[r]'r.isLt).appended x f = o := by simpa using ho
    omega

/-- A tick that completes no frame leaves the open record as it is. -/
theorem Console.moved_openRecord (c : Console) (pin : Bool) (now : Stamp) :
    (c.moved pin now).openRecord = c.openRecord := by
  fun_cases Console.moved <;> rfl

theorem textsShort_sampleTick {r} (h : s.textsShort) : (sampleTick r s).textsShort := by
  unfold sampleTick
  dsimp only
  split
  · refine textsShort_setConsole h ?_
    rw [Console.moved_openRecord]
    exact h r
  · exact h

theorem textsShort_consoleByte {r} (h : s.textsShort) : (consoleByte r s).textsShort := by
  unfold consoleByte
  dsimp only
  (repeat' split)
  · exact textsShort_addText (textsShort_setConsole h (h r))
  all_goals exact h

theorem textsShort_consoleBreak {r} (h : s.textsShort) : (consoleBreak r s).textsShort := by
  unfold consoleBreak
  dsimp only
  (repeat' split)
  · have hset := textsShort_setConsole (r := r)
      (c := { (s.btu.consoles[r]'r.isLt).ticked with rx := .waitHigh }) h (h r)
    exact State.textsShort.of_consoles (textsShort_closeText fun k _ => hset k) rfl
  all_goals exact h

theorem textsShort_idleClose {r} (h : s.textsShort) : (idleClose r s).textsShort := by
  unfold idleClose
  split
  · exact textsShort_closeText fun k _ => h k
  · exact h

theorem textsShort_serveConsoleConfig {q} (h : s.textsShort) : (serveConsoleConfig q s).textsShort := by
  unfold serveConsoleConfig
  dsimp only
  (repeat' split)
  · exact h
  · next r _ _ _ _ =>
    refine State.textsShort.of_consoles (textsShort_setConsole (textsShort_closeText (r := r) fun k _ => h k) ?_) rfl
    simp [Console.configured, closeText_openRecord, -Fin.getElem_fin]
  · exact h

end

end Sys2Proof.Machine
end

section
/-! The soundness of the Capture Store (7.1-7.6): every operation on a ring keeps its history, its place and its state
within what the ring's mode allows. -/

namespace Sys2Proof.Machine

set_option Elab.async false

open Sys2Proof.Claims

/-! ## One ring -/

section
variable {r w : Ring} {v : Stamp} {e : Int → Entry}

/-- A ring that is sound, in a state of its mode. -/
def Ring.ok (r : Ring) : Prop := r.sound ∧ r.placed

/-- The ring w is in the mode and has the allocation of r. -/
def Ring.sited (r w : Ring) : Prop := w.mode = r.mode ∧ w.base = r.base ∧ w.size = r.size

theorem Ring.apart_of_sited {x : Ring} (h : r.sited w) (ha : r.apart x) : w.apart x := by
  obtain ⟨hmode, hbase, hsize⟩ := h
  unfold Ring.apart
  rw [hmode, hbase, hsize]
  exact ha

theorem Ring.apart_symm {x : Ring} (h : r.apart x) : x.apart r := by
  unfold Ring.apart at h ⊢
  tauto

theorem Ring.sound_of_empty (h : r.entries = []) (hs : r.sinceMark ≤ 64) : r.sound := by
  simp [Ring.sound, Ring.occupancy, h, hs]

theorem Ring.placed_stream (hmode : r.mode = .stream) :
    r.placed ↔ 1 ≤ r.size ∧ (r.state = .ready ∨ r.state = .streaming) := by
  simp only [Ring.placed, hmode]

theorem Ring.mode_of_streaming (hp : r.placed) (hs : r.state = .streaming) : r.mode = .stream := by
  cases hmode : r.mode <;> simp [Ring.placed, hmode, hs] at hp ⊢

theorem Ring.mode_of_recording (hp : r.placed) (hs : r.state = .running ∨ r.state = .post) : r.mode = .window := by
  cases hmode : r.mode <;> rcases hs with hs | hs <;> simp [Ring.placed, hmode, hs] at hp ⊢

theorem Ring.ok_offerWindow (h : r.ok) (hmode : r.mode = .window) (he : writable e) :
    (r.offerWindow v e).1.ok ∧ r.sited (r.offerWindow v e).1 := by
  obtain ⟨hs, hp, hm, hbase, hsize⟩ := Ring.offerWindow_keeps (v := v) h.1 h.2 hmode he
  exact ⟨⟨hs, hp⟩, hm.trans hmode.symm, hbase, hsize⟩

theorem Ring.streamed_fixed (r : Ring) (v : Stamp) (e : Int → Entry) :
    (r.streamed v e).mode = r.mode ∧ (r.streamed v e).base = r.base ∧ (r.streamed v e).size = r.size ∧
      (r.streamed v e).state = r.state := by
  by_cases hd : r.dropped = 0
  · rw [Ring.streamed_whole r v e hd]
    obtain ⟨hm, hb, hz, -, -, hs, -⟩ := r.write_fixed v e
    exact ⟨hm, hb, hz, hs⟩
  · rw [Ring.streamed_gap r v e hd]
    obtain ⟨hm, hb, hz, -, -, hs, -⟩ := Ring.write_fixed
      { r.write v (fun d => .gap d r.dropped) with dropped := 0 } v e
    obtain ⟨gm, gb, gz, -, -, gs, -⟩ := r.write_fixed v fun d => .gap d r.dropped
    exact ⟨hm.trans gm, hb.trans gb, hz.trans gz, hs.trans gs⟩

theorem Ring.streamed_chained (h : r.chained) (he : writable e) : (r.streamed v e).chained := by
  by_cases hd : r.dropped = 0
  · rw [Ring.streamed_whole r v e hd]
    exact Ring.write_chained h he
  · rw [Ring.streamed_gap r v e hd]
    exact Ring.write_chained (r := { r.write v (fun d => .gap d r.dropped) with dropped := 0 })
      (Ring.write_chained (e := fun d => .gap d r.dropped) h (writable_gap _)) he

theorem Ring.ok_offerStream (h : r.ok) (hs : r.state = .streaming) (he : writable e) :
    (r.offerStream v e).ok ∧ r.sited (r.offerStream v e) := by
  have hmode := Ring.mode_of_streaming h.2 hs
  obtain ⟨hocc, hchain, hhead⟩ := Ring.sound_iff.mp h.1
  by_cases hfits : (r.streamed v e).occupancy ≤ r.capacity
  · rw [Ring.offerStream_writes r v e hfits]
    obtain ⟨hm, hb, hz, hst⟩ := r.streamed_fixed v e
    refine ⟨⟨Ring.sound_iff.mpr ⟨?_, Ring.streamed_chained hchain he, ?_⟩, ?_⟩, hm, hb, hz⟩
    · rw [Ring.capacity, hz]
      exact hfits
    · intro hw
      rw [hm, hmode] at hw
      cases hw
    · rw [Ring.placed_stream (hm.trans hmode), hz, hst]
      exact (Ring.placed_stream hmode).mp h.2
  · rw [Ring.offerStream_drops r v e (Nat.not_le.mp hfits)]
    exact ⟨h, rfl, rfl, rfl⟩

theorem Ring.ok_trigger {c} (h : r.ok) (hmode : r.mode = .window) (hrun : r.state = .running) :
    (r.trigger v c).ok ∧ r.sited (r.trigger v c) := by
  obtain ⟨hm, hb, hz, -⟩ := r.rewritten_fixed v fun d => .trig d c
  exact ⟨⟨Ring.trigger_sound h.1 h.2 hmode hrun, Ring.trigger_placed h.2 hmode⟩, hm, hb, hz⟩

theorem Ring.ok_afterExport (h : r.ok) (hs : r.state = .streaming) : r.afterExport.ok ∧ r.sited r.afterExport := by
  have hstream := Ring.mode_of_streaming h.2 hs
  obtain ⟨hocc, hchain, -⟩ := Ring.sound_iff.mp h.1
  refine ⟨⟨Ring.sound_iff.mpr ⟨?_, hchain.of_drop rfl rfl rfl, ?_⟩, ?_⟩, rfl, rfl, rfl⟩
  · exact (wordsOf_drop_le _ _).trans hocc
  · intro hmode
    rw [show r.afterExport.mode = r.mode from rfl, hstream] at hmode
    cases hmode
  · exact (Ring.placed_stream (r := r.afterExport) hstream).mpr ((Ring.placed_stream hstream).mp h.2)

theorem Ring.ok_arm (h : r.ok) : r.arm.ok ∧ r.sited r.arm := by
  unfold Ring.arm
  split
  · next hmode =>
    have hsize := Ring.size_of_window h.2 hmode
    refine ⟨⟨Ring.sound_of_empty rfl (Nat.zero_le _), ?_⟩, rfl, rfl, rfl⟩
    exact Ring.placed_window hmode hsize (.inr (.inl rfl)) fun _ => rfl
  · exact ⟨h, rfl, rfl, rfl⟩

theorem Ring.ok_halt {x} (h : r.ok) : (r.halt x).ok ∧ r.sited (r.halt x) := by
  unfold Ring.halt
  split
  · next hw =>
    have hsize := Ring.size_of_window h.2 hw.1
    exact ⟨⟨h.1, Ring.placed_window hw.1 hsize (by simp) (by simp)⟩, rfl, rfl, rfl⟩
  · exact ⟨h, rfl, rfl, rfl⟩

theorem Ring.ok_stopStream (h : r.ok) (hmode : r.mode = .stream) : r.stopStream.ok ∧ r.sited r.stopStream := by
  refine ⟨⟨Ring.sound_of_empty rfl (Nat.zero_le _), ?_⟩, rfl, rfl, rfl⟩
  exact (Ring.placed_stream (r := r.stopStream) hmode).mpr ⟨((Ring.placed_stream hmode).mp h.2).1, .inl rfl⟩

theorem Ring.ok_start (h : r.ok) (hmode : r.mode = .stream) :
    Ring.ok { r with state := .streaming } ∧ r.sited { r with state := .streaming } := by
  refine ⟨⟨h.1, ?_⟩, rfl, rfl, rfl⟩
  exact (Ring.placed_stream (r := { r with state := .streaming }) hmode).mpr
    ⟨((Ring.placed_stream hmode).mp h.2).1, .inr rfl⟩

/-- A ring with new settings is empty and waits in their mode (R127). -/
theorem Ring.ok_configure {x : RingSettings} (hsize : x.mode ≠ .off → 1 ≤ x.size) : (r.configure x).ok := by
  refine ⟨Ring.sound_of_empty rfl (Nat.zero_le _), ?_⟩
  cases hm : x.mode with
  | off => simp [Ring.placed, Ring.configure, Ring.emptied, hm]
  | window => simpa [Ring.placed, Ring.configure, hm] using hsize (by simp [hm])
  | stream => simpa [Ring.placed, Ring.configure, hm] using hsize (by simp [hm])

end

/-! ## The store -/

section
variable {u : Cst}

theorem Cst.sound_iff : u.sound ↔
    (∀ i : Fin 4, (u.rings[i]'i.isLt).ok ∧ (u.rings[i]'i.isLt).base + (u.rings[i]'i.isLt).size ≤ Config.memoryBlocks) ∧
      ∀ i j : Fin 4, i ≠ j → (u.rings[i]'i.isLt).apart (u.rings[j]'j.isLt) := by
  simp only [Cst.sound, Ring.ok, and_assoc]

/-- Rings that stay sound where they stand leave the store sound. -/
theorem Cst.sound.of_each {w : Cst} (h : u.sound)
    (hw : ∀ i : Fin 4, (w.rings[i]'i.isLt).ok ∧ (u.rings[i]'i.isLt).sited (w.rings[i]'i.isLt)) : w.sound := by
  rw [Cst.sound_iff] at h ⊢
  refine ⟨fun i => ⟨(hw i).1, ?_⟩, fun i j hij => ?_⟩
  · obtain ⟨-, hbase, hsize⟩ := (hw i).2
    rw [hbase, hsize]
    exact (h.1 i).2
  · exact Ring.apart_of_sited (hw i).2 (Ring.apart_symm (Ring.apart_of_sited (hw j).2 (Ring.apart_symm (h.2 i j hij))))

theorem Cst.sound.ok (h : u.sound) (i : Fin 4) : (u.rings[i]'i.isLt).ok := ((Cst.sound_iff.mp h).1 i).1

theorem Cst.sound.mapAll {f : Ring → Ring} (h : u.sound) (hf : ∀ r : Ring, r.ok → (f r).ok ∧ r.sited (f r)) :
    Cst.sound { u with rings := mapAll f u.rings } := by
  refine h.of_each fun i => ?_
  rw [mapAll_get]
  exact hf _ (h.ok i)

theorem Cst.sound_of_mode {i : Fin 4} {r : Ring} (h : u.sound) (hok : r.ok)
    (hmem : r.base + r.size ≤ Config.memoryBlocks) (hapart : ∀ j : Fin 4, j ≠ i → r.apart (u.rings[j]'j.isLt)) :
    Cst.sound { u with rings := put u.rings i r } := by
  rw [Cst.sound_iff] at h ⊢
  refine ⟨fun j => ?_, fun j k hjk => ?_⟩
  · rw [put_get]
    split
    · exact ⟨hok, hmem⟩
    · exact h.1 j
  · rw [put_get, put_get]
    split
    · next hj =>
      rw [if_neg fun hk => hjk (hj.symm.trans hk)]
      exact hapart k fun hk => hjk (hj.symm.trans hk.symm)
    · next hj =>
      split
      · exact Ring.apart_symm (hapart j (Ne.symm hj))
      · exact h.2 j k hjk

theorem Cst.sound.put {i : Fin 4} {r : Ring} (h : u.sound) (hr : r.ok ∧ (u.rings[i]'i.isLt).sited r) :
    Cst.sound { u with rings := put u.rings i r } := by
  refine h.of_each fun j => ?_
  rw [put_get]
  split
  · next hj => exact hj ▸ hr
  · exact ⟨h.ok j, rfl, rfl, rfl⟩

theorem Cst.sound.trigger {v c} (h : u.sound) : (u.trigger v c).sound := by
  refine h.mapAll fun r hr => ?_
  split
  · next hw => exact Ring.ok_trigger hr hw.1 hw.2
  · exact ⟨hr, rfl, rfl, rfl⟩

/-- Settings that pass R127's checks name an allocation inside the memory, apart from every other ring's. -/
theorem Cst.allowed {x : RingSettings} (h : u.allows x = true) (hm : x.mode ≠ .off) :
    1 ≤ x.size ∧ x.base + x.size ≤ Config.memoryBlocks ∧
      ∀ j : Fin 4, j ≠ x.ring → (u.rings[j]'j.isLt).mode = .off ∨ x.base + x.size ≤ (u.rings[j]'j.isLt).base ∨
        (u.rings[j]'j.isLt).base + (u.rings[j]'j.isLt).size ≤ x.base := by
  simp only [Cst.allows, Bool.or_eq_true, Bool.and_eq_true, beq_iff_eq, decide_eq_true_eq, hm, false_or,
    Bool.not_eq_true'] at h
  obtain ⟨⟨⟨hsize, -⟩, hmem⟩, hover⟩ := h
  refine ⟨hsize, hmem, fun j hj => ?_⟩
  have hnot := (List.any_eq_false.mp hover) j (List.mem_finRange j)
  simp only [bne_iff_ne, ne_eq, Bool.and_eq_true, decide_eq_true_eq, hj, not_false_eq_true, true_and] at hnot
  by_cases hoff : (u.rings[j]'j.isLt).mode = .off
  · exact .inl hoff
  · simp only [hoff, not_false_eq_true, true_and] at hnot
    omega

theorem Cst.sound.configure {x : RingSettings} (h : u.sound) (hx : u.allows x = true) :
    Cst.sound { u with rings := Machine.put u.rings x.ring ((u.rings[x.ring]'x.ring.isLt).configure x) } := by
  by_cases hm : x.mode = .off
  · refine Cst.sound_of_mode h (Ring.ok_configure fun hn => absurd hm hn) ?_ fun j _ => .inl ?_
    · simp [Ring.configure, hm]
    · simp [Ring.configure, hm]
  · obtain ⟨hsize, hmem, hapart⟩ := Cst.allowed hx hm
    refine Cst.sound_of_mode h (Ring.ok_configure fun _ => hsize) ?_ fun j hj => ?_
    · simpa [Ring.configure, hm] using hmem
    · have := hapart j hj
      simp only [Ring.apart, Ring.configure, hm, if_false, false_or]
      tauto

end

/-! ## The operations -/

section
variable {s t : State}

/-- The Capture Store is sound. -/
def State.ringsSound (s : State) : Prop := s.cst.sound

theorem State.ringsSound.of_cst (h : s.ringsSound) (e : t.cst = s.cst) : t.ringsSound := by
  rw [State.ringsSound, e]
  exact h

theorem State.ringsSound.of_rings (h : s.ringsSound) (e : t.cst.rings = s.cst.rings) : t.ringsSound := by
  rw [State.ringsSound, Cst.sound, e]
  exact h

theorem ringsSound_setRing {i r} (h : s.ringsSound) (hr : r.ok ∧ (s.cst.rings[i]'i.isLt).sited r) :
    (setRing i r s).ringsSound :=
  Cst.sound.put h hr

theorem ringsSound_offer {i r x} (hr : r.bodyWithin) (h : s.ringsSound) : (offer i r x s).ringsSound := by
  have he := writable_ordinaryEntry hr x
  have hok := Cst.sound.ok h i
  unfold offer
  dsimp only
  split
  · next hstate =>
    have hw := Ring.ok_offerWindow (v := r.stamp) hok (Ring.mode_of_recording hok.2 (.inl hstate)) he
    split
    · exact (ringsSound_setRing h hw).of_cst (by simp)
    · exact ringsSound_setRing h hw
  · next hstate =>
    have hw := Ring.ok_offerWindow (v := r.stamp) hok (Ring.mode_of_recording hok.2 (.inr hstate)) he
    split
    · exact (ringsSound_setRing h hw).of_cst (by simp)
    · exact ringsSound_setRing h hw
  · next hstate =>
    have hw := Ring.ok_offerStream (v := r.stamp) hok hstate he
    split
    · exact (ringsSound_setRing h hw).of_cst rfl
    · exact ringsSound_setRing h hw
  · exact h

theorem ringsSound_keptByClassifier : KeptByClassifier Record.bodyWithin State.ringsSound where
  registers _ h := h
  alert _ h := h
  inject _ h := h.of_cst (by simp)
  press _ _ h := h.of_cst (by simp)
  safe h := h.of_cst (by simp)
  capture _ _ h := Cst.sound.trigger h
  table _ h := h
  ring _ _ _ hr h := ringsSound_offer hr h
  scan _ h := h.of_cst (by simp)
  drive _ _ h := h.of_cst (by simp)

theorem ringsSound_applyTimeSet {v q} (h : s.ringsSound) : (applyTimeSet v q s).ringsSound :=
  Cst.sound.mapAll h fun _ hr => ⟨hr, rfl, rfl, rfl⟩

theorem ringsSound_timeSetEdge {i x v} (h : s.ringsSound) : (timeSetEdge i x v s).ringsSound := by
  unfold timeSetEdge
  (repeat' split)
  · exact ringsSound_applyTimeSet h
  all_goals exact h

theorem ringsSound_acceptedChange {i x v b} (h : s.ringsSound) : (acceptedChange i x v b s).ringsSound := by
  unfold acceptedChange
  split
  · exact (ringsSound_timeSetEdge (i := i) (x := x) (v := v) h).of_cst (by simp)
  · exact h.of_cst (by simp)

theorem ringsSound_acceptEdge {i v} (h : s.ringsSound) : (acceptEdge i v s).ringsSound := by
  unfold acceptEdge
  dsimp only
  exact ringsSound_acceptedChange (h.of_cst (by split <;> rfl))

theorem ringsSound_linkEgress {b} (h : s.ringsSound) : (linkEgress b s).ringsSound := by
  have hform {a} : (formExport a s).ringsSound := by
    unfold formExport
    split
    · next i hi =>
      have hs := (exportRing_spec s.cst).2 i hi
      exact ringsSound_setRing h (Ring.ok_afterExport (Cst.sound.ok h i) hs.1.1)
    · exact h
  unfold linkEgress egress egressExport
  dsimp only
  (repeat' split)
  all_goals first | exact h | exact hform

/-! ## Requests -/

variable {q : Request}

theorem ringsSound_serveTimeSetImmediate (h : s.ringsSound) : (serveTimeSetImmediate q s).ringsSound := by
  unfold serveTimeSetImmediate
  split
  · exact ringsSound_applyTimeSet (h.of_cst (by simp))
  · exact h

theorem ringsSound_serveLaneConfig (h : s.ringsSound) : (serveLaneConfig q s).ringsSound := by
  unfold serveLaneConfig
  dsimp only
  (repeat' split)
  · exact h
  · exact h
  · exact State.ringsSound.of_cst (ringsSound_acceptedChange (h.of_cst (by simp))) rfl
  · exact h

theorem ringsSound_serveArm (h : s.ringsSound) : (serveArm q s).ringsSound := by
  have harm : Cst.sound { s.cst with rings := mapAll Ring.arm s.cst.rings } := Cst.sound.mapAll h fun _ => Ring.ok_arm
  unfold serveArm
  dsimp only
  split
  · split
    · exact harm
    · exact harm
  · exact h

theorem ringsSound_stopRun (h : s.ringsSound) : (stopRun s).ringsSound := by
  unfold stopRun
  split
  · exact Cst.sound.mapAll h fun _ => Ring.ok_halt
  · exact Cst.sound.mapAll h fun _ => Ring.ok_halt
  · exact h
  · exact h

theorem ringsSound_serveTriggerNow (h : s.ringsSound) : (serveTriggerNow q s).ringsSound := by
  unfold serveTriggerNow
  split
  · exact (ringsSound_keptByClassifier.triggerRun h).of_cst rfl
  · exact h

theorem ringsSound_serveRingConfig (h : s.ringsSound) : (serveRingConfig q s).ringsSound := by
  unfold serveRingConfig
  dsimp only
  split
  · exact h
  · split
    · exact h
    · split
      · exact h
      · next hallow =>
        split
        · exact h
        · split
          · exact h
          · exact Cst.sound.configure h (by simpa using hallow)

theorem ringsSound_serveRingStart (h : s.ringsSound) : (serveRingStart q s).ringsSound := by
  unfold serveRingStart
  dsimp only
  (repeat' split)
  · exact h
  · exact h
  · next hready => exact ringsSound_setRing h (Ring.ok_start (Cst.sound.ok h _) hready.1)
  · exact h

theorem ringsSound_serveRingStop (h : s.ringsSound) : (serveRingStop q s).ringsSound := by
  unfold serveRingStop
  dsimp only
  (repeat' split)
  · exact h
  · exact h
  · next hmode _ => exact ringsSound_setRing h (Ring.ok_stopStream (Cst.sound.ok h _) hmode)
  · exact h
  · exact h

theorem ringsSound_serveWhen {code fits handler} (h : s.ringsSound)
    (hs : ∀ q u, u.ringsSound → (handler q u).ringsSound) : (serveWhen code fits handler s).ringsSound :=
  serveWhen_keeps h fun q _ _ _ _ => hs q _ (h.of_cst rfl)

/-! ## Steps -/

theorem ringsSound_exec_of_writes {c : Instr} (hs : s.ringsSound) (hb : ∀ r ∈ s.cle.queue, r.bodyWithin)
    (h : exec c s = .next t) (hw : WritesCst c) : t.ringsSound := by
  cases hw <;> obtain rfl := Host.Outcome.next.inj h
  case powerOnReset => exact State.ringsSound.of_rings (s := State.reset) reset_ringsSound rfl
  case softReset =>
    exact serveWhen_keeps hs fun _ _ _ _ _ => State.ringsSound.of_rings (s := State.reset) reset_ringsSound rfl
  case memoryReady => exact hs.of_rings rfl
  case tick => exact ringsSound_keptByClassifier.tick (fun _ hu => hu) hs
  case laneAcceptance =>
    unfold laneAcceptance
    split
    · exact ringsSound_acceptEdge hs
    · exact hs
  case bypassAcceptedChange =>
    unfold laneBypass
    split
    · exact ringsSound_acceptEdge hs
    · exact hs
  case classifyRecord => exact ringsSound_keptByClassifier.classifyNext hb hs
  case linkEgress => exact ringsSound_linkEgress hs
  all_goals refine ringsSound_serveWhen hs fun q u hu => ?_
  case timeSetImmediate => exact ringsSound_serveTimeSetImmediate hu
  case laneConfig => exact ringsSound_serveLaneConfig hu
  case arm => exact ringsSound_serveArm hu
  case stop => exact (ringsSound_stopRun hu).of_cst rfl
  case triggerNow => exact ringsSound_serveTriggerNow hu
  case ringConfig => exact ringsSound_serveRingConfig hu
  case ringStart => exact ringsSound_serveRingStart hu
  case ringStop => exact ringsSound_serveRingStop hu

theorem ringsSound_exec {c : Instr} (hs : s.ringsSound) (hb : ∀ r ∈ s.cle.queue, r.bodyWithin)
    (h : exec c s = .next t) : t.ringsSound := by
  by_cases hw : WritesCst c
  · exact ringsSound_exec_of_writes hs hb h hw
  · exact hs.of_cst (exec_cst h hw)

end

end Sys2Proof.Machine
end

section
/-! Every step keeps the rings sound and the record bodies within 16 bytes (4.2, 4.5, chapter 7). -/

namespace Sys2Proof.Machine

set_option Elab.async false

open Sys2Proof.Claims

section
variable {s t : State}

/-! ## Holding FIFOs over a command -/

@[simp] theorem frameArrival_hold {f} : (frameArrival f s).hold = s.hold := by
  unfold frameArrival checkHeader
  (repeat' split) <;> rfl

@[simp] theorem linkEgress_hold {b} : (linkEgress b s).hold = s.hold := by
  unfold linkEgress egress egressExport formExport
  dsimp only
  (repeat' split) <;> rfl

@[simp] theorem frameSent_hold : (frameSent s).hold = s.hold := by
  fun_cases frameSent <;> rfl

/-- What a reset FIFO satisfies, and accepting and releasing keep, every command keeps of every FIFO. -/
theorem exec_hold_each {A : Record → Prop} {P : Hold → Prop} {c : Instr} (hA : TakesShortBodies A)
    (ho : TakesOpenRecords A s) (hreset : P Hold.reset) (haccept : ∀ h r, A r → P h → P (h.accept r))
    (hrelease : ∀ h : Hold, h.fifo ≠ [] → P h → P h.release) (hs : ∀ i : Fin 33, P (s.hold[i]'i.isLt))
    (h : exec c s = .next t) : ∀ i : Fin 33, P (t.hold[i]'i.isLt) := by
  have hzero : ∀ i : Fin 33, P ((Vector.replicate 33 Hold.reset)[i]'i.isLt) := fun i => by
    rw [replicate_get]
    exact hreset
  by_cases hc : ReshapesLink c
  swap
  · exact (exec_reported hA ho h hc).hold_each haccept hs
  · cases hc <;> obtain rfl := Host.Outcome.next.inj h
    case powerOnReset => exact hzero
    case softReset =>
      exact serveWhen_keeps (P := fun u => ∀ i : Fin 33, P (u.hold[i]'i.isLt)) hs fun _ _ _ _ _ => hzero
    case admission =>
      cases hadm : s.admits with
      | none => simpa only [admitNext, hadm] using hs
      | some i =>
        obtain ⟨-, hne⟩ := admits_some hadm
        intro k
        rw [(admitNext_of_admits hadm).2.2, put_get]
        split
        · exact hrelease _ hne (hs i)
        · exact hs k
    case frameArrival => simpa only [frameArrival_hold] using hs
    case linkEgress => simpa only [linkEgress_hold] using hs
    case frameSent => simpa only [frameSent_hold] using hs

/-! ## The record queue over a command -/

theorem admitNext_none (h : s.admits = none) : admitNext s = s := by simp only [admitNext, h]

/-- The queue after a command holds records it held, or the oldest record of a FIFO. -/
theorem exec_queue_mem {c : Instr} (h : exec c s = .next t) :
    ∀ r ∈ t.cle.queue, r ∈ s.cle.queue ∨ ∃ i : Fin 33, r ∈ (s.hold[i]'i.isLt).fifo := by
  by_cases hc : MovesQueue c
  swap
  · exact fun r hr => .inl ((exec_retabled h hc).1 ▸ hr)
  · cases hc <;> obtain rfl := Host.Outcome.next.inj h
    case powerOnReset => exact fun r hr => absurd hr List.not_mem_nil
    case softReset =>
      exact serveWhen_keeps
        (P := fun u => ∀ r ∈ u.cle.queue, r ∈ s.cle.queue ∨ ∃ i : Fin 33, r ∈ (s.hold[i]'i.isLt).fifo)
        (fun _ => .inl) fun _ _ _ _ _ r hr => absurd hr List.not_mem_nil
    case admission =>
      intro r hr
      cases hadm : s.admits with
      | none =>
        rw [admitNext_none hadm] at hr
        exact .inl hr
      | some i =>
        rw [(admitNext_of_admits hadm).1, List.mem_append] at hr
        exact hr.imp_right fun hr => ⟨i, List.mem_of_mem_take hr⟩
    case classifyRecord =>
      intro r hr
      rw [(classifyNext_retabled s).1] at hr
      exact .inl (List.mem_of_mem_tail hr)

/-! ## Open records over a command -/

theorem reset_busesHold {P : BusRecord → Prop} : State.reset.busesHold P := by
  simp [State.busesHold, State.reset, Btu.reset, Bus.reset]

theorem reset_textsShort : State.reset.textsShort := by
  simp [State.textsShort, State.reset, Btu.reset, Console.reset]

theorem busesHold_exec {P : BusRecord → Prop} {c : Instr} (k : KeptByBytes P) (hs : s.busesHold P)
    (h : exec c s = .next t) : t.busesHold P := by
  by_cases hw : WritesBtu c
  swap
  · exact hs.of_btu (exec_btu h hw)
  · cases hw <;> obtain rfl := Host.Outcome.next.inj h
    case powerOnReset => exact State.busesHold.of_btu (s := State.reset) reset_busesHold rfl
    case softReset =>
      exact serveWhen_keeps hs fun _ _ _ _ _ => State.busesHold.of_btu (s := State.reset) reset_busesHold rfl
    case busStart => exact busesHold_busStart k hs
    case busStop => exact busesHold_busStop hs
    case busByteEnd => exact busesHold_busByteEnd k hs
    case stuckTimeout => exact busesHold_stuckTimeout hs
    case stuckEpisodeEnd => exact busesHold_stuckEpisodeEnd hs
    case busLineDeparture g l pin => exact busesHold_busLineDeparture (hs.of_btu (by cases l <;> rfl))
    case bitTaken => exact busesHold_bitTaken hs
    case busConfig => exact serveWhen_keeps hs fun _ _ _ _ _ => busesHold_serveBusConfig hs
    case consoleConfig =>
      refine serveWhen_keeps hs fun _ _ _ _ _ => State.busesHold.of_buses (s := s) hs ?_
      unfold serveConsoleConfig
      dsimp only
      (repeat' split) <;> simp
    case consoleByte =>
      refine hs.of_buses ?_
      unfold consoleByte
      dsimp only
      (repeat' split) <;> simp [setConPin]
    case consoleBreak =>
      refine hs.of_buses ?_
      unfold consoleBreak
      dsimp only
      (repeat' split) <;> simp [setConPin]
    case idleClose =>
      refine hs.of_buses ?_
      unfold idleClose
      (repeat' split) <;> simp
    case sampleTick =>
      refine hs.of_buses ?_
      unfold sampleTick
      dsimp only
      (repeat' split) <;> simp [setConPin]

theorem textsShort_exec {c : Instr} (hs : s.textsShort) (h : exec c s = .next t) : t.textsShort := by
  by_cases hw : WritesBtu c
  swap
  · exact hs.of_consoles (by rw [exec_btu h hw])
  · cases hw <;> obtain rfl := Host.Outcome.next.inj h
    case powerOnReset => exact State.textsShort.of_consoles (s := State.reset) reset_textsShort rfl
    case softReset =>
      exact serveWhen_keeps hs fun _ _ _ _ _ => State.textsShort.of_consoles (s := State.reset) reset_textsShort rfl
    case consoleByte => exact textsShort_consoleByte (hs.of_consoles rfl)
    case consoleBreak => exact textsShort_consoleBreak (hs.of_consoles rfl)
    case idleClose => exact textsShort_idleClose hs
    case sampleTick => exact textsShort_sampleTick (hs.of_consoles rfl)
    case consoleConfig => exact serveWhen_keeps hs fun _ _ _ _ _ => textsShort_serveConsoleConfig hs
    case busConfig =>
      refine serveWhen_keeps hs fun _ _ _ _ _ => State.textsShort.of_consoles (s := s) hs ?_
      unfold serveBusConfig
      (repeat' split) <;> simp
    case busStart =>
      refine hs.of_consoles ?_
      unfold busStart
      dsimp only
      (repeat' split) <;> simp
    case busStop =>
      refine hs.of_consoles ?_
      unfold busStop
      dsimp only
      (repeat' split) <;> simp
    case busByteEnd =>
      refine hs.of_consoles ?_
      unfold busByteEnd
      dsimp only
      split <;> simp
    case stuckTimeout =>
      refine hs.of_consoles ?_
      unfold stuckTimeout
      dsimp only
      (repeat' split) <;> simp
    case stuckEpisodeEnd =>
      refine hs.of_consoles ?_
      unfold stuckEpisodeEnd
      dsimp only
      split <;> simp
    case busLineDeparture g l pin =>
      refine hs.of_consoles ?_
      unfold busLineDeparture busDataLow
      dsimp only
      cases l <;> (repeat' split) <;> simp [setBusPin]
    case bitTaken =>
      refine hs.of_consoles ?_
      unfold bitTaken
      dsimp only
      split_ifs <;> simp

/-! ## Steps -/

theorem keptByBytes_body : KeptByBytes fun o => o.body.length = min 16 o.count where
  opened _ := rfl
  addressed _ h := h
  added {o} x h := by
    simp only [BusRecord.addByte]
    split
    · rw [List.length_append, h, List.length_singleton]
      omega
    · rw [h]
      omega

/-- The rings are sound and the bodies on their way within bounds. -/
def State.recordsSound (s : State) : Prop := s.ringsSound ∧ s.bodiesWithin

theorem recordsSound_exec {c : Instr} (hs : s.recordsSound) (h : exec c s = .next t) : t.recordsSound := by
  obtain ⟨hrings, hbodies⟩ := hs
  obtain ⟨hhold, hqueue, hbuses, htexts⟩ := hbodies
  refine ⟨ringsSound_exec hrings hqueue h, ?_, fun r hr => ?_, busesHold_exec keptByBytes_body hbuses h,
    textsShort_exec htexts h⟩
  · exact exec_hold_each (P := Hold.all Record.bodyWithin) takesShortBodies_within
      (takesOpenRecords_within ⟨hhold, hqueue, hbuses, htexts⟩) (by simp [Hold.all, Hold.reset])
      (fun _ _ hr hh => Hold.all_accept ignoresLost_bodyWithin hh hr)
      (fun _ _ => Hold.all_release ignoresLost_bodyWithin) hhold h
  · rcases exec_queue_mem h r hr with hr | ⟨i, hr⟩
    · exact hqueue r hr
    · exact (hhold i).1 r hr

theorem recordsSound_coreClock (hs : s.recordsSound) : (coreClock s).recordsSound := by
  obtain ⟨hrings, hhold, hqueue, hbuses, htexts⟩ := hs
  refine ⟨hrings.of_rings rfl, hhold, hqueue, fun g o ho => hbuses g o ?_, fun c o ho => htexts c o ?_⟩
  · rw [show ((coreClock s).btu.buses[g]'g.isLt) = (s.btu.buses[g]'g.isLt).tickClock from mapAll_get _ _ g] at ho
    exact ho
  · rw [show ((coreClock s).btu.consoles[c]'c.isLt) = (s.btu.consoles[c]'c.isLt).tickClock from mapAll_get _ _ c] at ho
    unfold Console.tickClock at ho
    dsimp only at ho
    split at ho
    · exact ho
    · exact ho

/-- Settles O58: every command and every core clock keeps the rings sound and the bodies within bounds. -/
theorem ringsStaySound : Obligations.RingsStaySound := by
  intro s t hrings hbodies h
  exact step_keeps (P := State.recordsSound) (fun _ _ hu => hu) (fun _ _ _ hu he => recordsSound_exec hu he)
    (fun _ => recordsSound_coreClock) ⟨hrings, hbodies⟩ h

end

end Sys2Proof.Machine
end

section
/-! Every step keeps the stores and the saturating counts within their places (1.2, 2.1, 2.4, 5.1, 7.6, 8.2, 9.5,
10.2). -/

namespace Sys2Proof.Machine

set_option Elab.async false

open Sys2Proof.Claims

section
variable {s t : State} {q : Request}

/-! ## Lanes and the clock check -/

/-- The glitch counts and the three clock counts are within their places. -/
def State.tapWithin (s : State) : Prop :=
  (∀ i : Fin 16, (s.stu.lanes[i]'i.isLt).glitchCount ≤ 65535) ∧
    s.stu.check.core ≤ 255 ∧ s.stu.check.bref ≤ 255 ∧ s.stu.check.rclk ≤ 255

theorem State.tapWithin.of_stu (h : s.tapWithin) (e : t.stu = s.stu) : t.tapWithin := by
  rw [State.tapWithin, e]
  exact h

theorem tapWithin_setLane {i l} (h : s.tapWithin) (hl : l.glitchCount ≤ 65535) : (setLane i l s).tapWithin := by
  refine ⟨fun k => ?_, h.2⟩
  simp only [setLane, put_get]
  split
  · exact hl
  · exact h.1 k

theorem tapWithin_expireEpisode (h : s.tapWithin) : (expireEpisode s).tapWithin := by
  fun_cases expireEpisode <;> exact h

theorem tapWithin_decoderEdge {i v} (h : s.tapWithin) : (decoderEdge i v s).tapWithin := by
  unfold decoderEdge
  dsimp only
  split
  · split
    · exact tapWithin_expireEpisode h
    · exact h
  · exact h

theorem tapWithin_acceptedChange {i x v b} (h : s.tapWithin) : (acceptedChange i x v b s).tapWithin := by
  have hbase : (if b then timeSetEdge i x v s else s).tapWithin := h.of_stu (by split <;> simp)
  exact (tapWithin_decoderEdge (i := i) (v := v) hbase).of_stu (by simp [acceptedChange])

theorem tapWithin_acceptEdge {i v} (h : s.tapWithin) : (acceptEdge i v s).tapWithin := by
  refine tapWithin_acceptedChange ?_
  have hlane := tapWithin_setLane (i := i)
    (l := { s.stu.lanes[i]'i.isLt with
      accepted := !(s.stu.lanes[i]'i.isLt).accepted, filter := .steady, lastEdge := some v }) h (h.1 i)
  split
  · exact hlane.of_stu rfl
  · exact hlane

theorem ClockCheck.count_within {c : ClockCheck} (h : c.core ≤ 255 ∧ c.bref ≤ 255 ∧ c.rclk ≤ 255) (k b r : Nat) :
    (c.count k b r).core ≤ 255 ∧ (c.count k b r).bref ≤ 255 ∧ (c.count k b r).rclk ≤ 255 := by
  unfold ClockCheck.count
  split
  · exact ⟨Nat.min_le_left .., Nat.min_le_left .., Nat.min_le_left ..⟩
  · exact h

theorem tapWithin_tckClock {x y} (h : s.tapWithin) : (tckClock x y s).tapWithin := by
  have hsample : (sampleReturn x y s).tapWithin := ⟨h.1, ClockCheck.count_within h.2 _ _ _⟩
  unfold tckClock
  dsimp only
  split
  · exact hsample.of_stu (by simp)
  · exact hsample

theorem Lane.configure_glitchCount (l : Lane) (c : LaneSettings) (x : Bool) :
    (l.configure c x).glitchCount = l.glitchCount := by
  fun_cases Lane.configure <;> rfl

theorem tapWithin_serveLaneConfig (h : s.tapWithin) : (serveLaneConfig q s).tapWithin := by
  unfold serveLaneConfig
  dsimp only
  split
  · exact h
  · next i c _ =>
    have hlane := tapWithin_setLane (i := i) (l := (s.stu.lanes[i]'i.isLt).configure c (s.pins.lanes[i]'i.isLt)) h
      (by rw [Lane.configure_glitchCount]; exact h.1 i)
    split
    · exact h
    · split
      · exact State.tapWithin.of_stu (tapWithin_acceptedChange hlane) rfl
      · exact hlane.of_stu rfl

theorem tapWithin_serveGlitchClear (h : s.tapWithin) : (serveGlitchClear q s).tapWithin := by
  refine ⟨fun i => ?_, h.2⟩
  simp only [serveGlitchClear, done_stu, mapEach_get]
  split
  · exact Nat.zero_le _
  · exact h.1 i

theorem tapWithin_serveClockCheck (h : s.tapWithin) : (serveClockCheck q s).tapWithin := by
  unfold serveClockCheck
  dsimp only
  split <;> exact ⟨h.1, Nat.zero_le _, Nat.zero_le _, Nat.zero_le _⟩

theorem reset_tapWithin : State.reset.tapWithin := by
  simp [State.tapWithin, State.reset, Stu.reset, Lane.reset, ClockCheck.reset]

theorem tapWithin_exec {c : Instr} (hs : s.tapWithin) (h : exec c s = .next t) : t.tapWithin := by
  by_cases hw : WritesStu c
  swap
  · exact hs.of_stu (exec_stu h hw)
  · cases hw <;> obtain rfl := Host.Outcome.next.inj h
    case powerOnReset => exact State.tapWithin.of_stu (s := State.reset) reset_tapWithin rfl
    case softReset =>
      exact serveWhen_keeps hs fun _ _ _ _ _ => State.tapWithin.of_stu (s := State.reset) reset_tapWithin rfl
    case laneDeparture i pin =>
      unfold laneDeparture
      split
      · exact tapWithin_setLane hs (hs.1 i)
      · exact hs
    case laneAcceptance =>
      unfold laneAcceptance
      split
      · exact tapWithin_acceptEdge hs
      · exact hs
    case glitch i pin =>
      unfold laneGlitch
      dsimp only
      split
      · have hcount := tapWithin_setLane (s := setLanePin i pin s) (i := i)
          (l := { s.stu.lanes[i]'i.isLt with
            filter := .steady, glitchCount := min 65535 ((s.stu.lanes[i]'i.isLt).glitchCount + 1) }) hs
          (Nat.min_le_left ..)
        split
        · exact hcount.of_stu rfl
        · exact hcount
      · exact hs
    case bypassAcceptedChange i pin =>
      unfold laneBypass
      split
      · exact tapWithin_acceptEdge (s := setLanePin i pin s) hs
      · exact hs
    case episodeExpiry =>
      split
      · exact tapWithin_expireEpisode hs
      · exact hs
    case clockCheckEnd =>
      unfold clockCheckEnd
      dsimp only
      (repeat' split) <;> exact hs
    case tckClock => exact tapWithin_tckClock hs
    case laneConfig => exact serveWhen_keeps hs fun _ _ _ _ _ => tapWithin_serveLaneConfig hs
    case glitchClear => exact serveWhen_keeps hs fun _ _ _ _ _ => tapWithin_serveGlitchClear hs
    case decodeConfig =>
      refine serveWhen_keeps hs fun _ _ _ _ _ => ?_
      unfold serveDecodeConfig
      (repeat' split) <;> exact hs
    case decodeLoad =>
      refine serveWhen_keeps hs fun _ _ _ _ _ => ?_
      unfold serveDecodeLoad
      (repeat' split) <;> exact hs
    case clockCheck => exact serveWhen_keeps hs fun _ _ _ _ _ => tapWithin_serveClockCheck hs

/-! ## Dropped entries -/

/-- The dropped counts of the rings are within 2^32 - 1. -/
def State.dropsWithin (s : State) : Prop := ∀ i : Fin 4, (s.cst.rings[i]'i.isLt).dropped ≤ 2 ^ 32 - 1

theorem State.dropsWithin.of_rings (h : s.dropsWithin) (e : t.cst.rings = s.cst.rings) : t.dropsWithin := by
  rw [State.dropsWithin, e]
  exact h

theorem dropsWithin_setRing {i r} (h : s.dropsWithin) (hr : r.dropped ≤ 2 ^ 32 - 1) : (setRing i r s).dropsWithin := by
  intro k
  simp only [setRing, put_get]
  split
  · exact hr
  · exact h k

theorem dropsWithin_mapAll {f : Ring → Ring} {u : Cst} (hf : ∀ r, (f r).dropped = r.dropped ∨ (f r).dropped = 0)
    (h : ∀ i : Fin 4, (u.rings[i]'i.isLt).dropped ≤ 2 ^ 32 - 1) (i : Fin 4) :
      ((mapAll f u.rings)[i]'i.isLt).dropped ≤ 2 ^ 32 - 1 := by
  rw [mapAll_get]
  have := h i
  rcases hf (u.rings[i]'i.isLt) with hd | hd <;> omega

theorem Ring.offerWindow_dropped (r : Ring) (v : Stamp) (e : Int → Entry) :
    (r.offerWindow v e).1.dropped = r.dropped := by
  have hwrite := (r.rewritten_fixed v e).2.2.2.2.2.2.1
  cases h : (r.roomFor v e).2 with
  | false =>
    rw [Ring.offerWindow_full h]
    exact (Ring.makeRoom_drops (r.needs v e) r.entries.length r).2.2.2.2.2.2.2.2.2.2.1
  | true =>
    by_cases hpost : r.state = .post
    · rw [Ring.offerWindow_post h hpost]
      split <;> exact hwrite
    · rw [Ring.offerWindow_write h hpost]
      exact hwrite

theorem Ring.offerStream_dropped (r : Ring) (v : Stamp) (e : Int → Entry) :
    (r.offerStream v e).dropped ≤ 2 ^ 32 - 1 := by
  by_cases hfits : (r.streamed v e).occupancy ≤ r.capacity
  · rw [Ring.offerStream_writes r v e hfits, Ring.streamed_dropped]
    exact Nat.zero_le _
  · rw [Ring.offerStream_drops r v e (Nat.not_le.mp hfits)]
    exact Nat.min_le_left ..

theorem Ring.trigger_dropped (r : Ring) (v : Stamp) (c : Cause) : (r.trigger v c).dropped = r.dropped :=
  (r.rewritten_fixed v fun d => .trig d c).2.2.2.2.2.2.1

theorem dropsWithin_offer {i r x} (h : s.dropsWithin) : (offer i r x s).dropsWithin := by
  have hwindow := dropsWithin_setRing (i := i)
    (r := ((s.cst.rings[i]'i.isLt).offerWindow r.stamp (ordinaryEntry r x)).1) h
    (by rw [Ring.offerWindow_dropped]; exact h i)
  have hstream := dropsWithin_setRing (i := i) (r := (s.cst.rings[i]'i.isLt).offerStream r.stamp (ordinaryEntry r x)) h
    (Ring.offerStream_dropped _ _ _)
  unfold offer
  dsimp only
  split
  · split
    · exact hwindow.of_rings (by simp)
    · exact hwindow
  · split
    · exact hwindow.of_rings (by simp)
    · exact hwindow
  · split
    · exact hstream
    · exact hstream
  · exact h

theorem dropsWithin_keptByClassifier : KeptByClassifier (fun _ => True) State.dropsWithin where
  registers _ h := h
  alert _ h := h
  inject _ h := h.of_rings (by simp)
  press _ _ h := h.of_rings (by simp)
  safe h := h.of_rings (by simp)
  capture v c h := dropsWithin_mapAll (fun r => by
    split
    · exact .inl (r.trigger_dropped v c)
    · exact .inl rfl) h
  table _ h := h
  ring _ _ _ _ h := dropsWithin_offer h
  scan _ h := h.of_rings (by simp)
  drive _ _ h := h.of_rings (by simp)

theorem dropsWithin_applyTimeSet {v q} (h : s.dropsWithin) : (applyTimeSet v q s).dropsWithin :=
  dropsWithin_mapAll (fun _ => .inl rfl) h

theorem dropsWithin_acceptedChange {i x v b} (h : s.dropsWithin) : (acceptedChange i x v b s).dropsWithin := by
  have hset : (timeSetEdge i x v s).dropsWithin := by
    unfold timeSetEdge
    (repeat' split)
    · exact dropsWithin_applyTimeSet h
    all_goals exact h
  unfold acceptedChange
  split
  · exact hset.of_rings (by simp)
  · exact h.of_rings (by simp)

theorem dropsWithin_acceptEdge {i v} (h : s.dropsWithin) : (acceptEdge i v s).dropsWithin :=
  dropsWithin_acceptedChange (h.of_rings (by split <;> rfl))

theorem dropsWithin_linkEgress {b} (h : s.dropsWithin) : (linkEgress b s).dropsWithin := by
  have hform {a} : (formExport a s).dropsWithin := by
    unfold formExport
    split
    · next i _ => exact dropsWithin_setRing (i := i) (r := (s.cst.rings[i]'i.isLt).afterExport) h (h i)
    · exact h
  unfold linkEgress egress egressExport
  dsimp only
  (repeat' split)
  all_goals first | exact h | exact hform

theorem dropsWithin_arm (h : s.dropsWithin) (i : Fin 4) :
    ((mapAll Ring.arm s.cst.rings)[i]'i.isLt).dropped ≤ 2 ^ 32 - 1 :=
  dropsWithin_mapAll (fun r => by
    unfold Ring.arm
    split
    · exact .inr rfl
    · exact .inl rfl) h i

theorem dropsWithin_halt {x} (h : s.dropsWithin) (i : Fin 4) :
    ((mapAll (Ring.halt x) s.cst.rings)[i]'i.isLt).dropped ≤ 2 ^ 32 - 1 :=
  dropsWithin_mapAll (fun r => by
    unfold Ring.halt
    split <;> exact .inl rfl) h i

theorem dropsWithin_serveTimeSetImmediate (h : s.dropsWithin) : (serveTimeSetImmediate q s).dropsWithin := by
  unfold serveTimeSetImmediate
  split
  · exact dropsWithin_applyTimeSet (h.of_rings (by simp))
  · exact h

theorem dropsWithin_serveLaneConfig (h : s.dropsWithin) : (serveLaneConfig q s).dropsWithin := by
  unfold serveLaneConfig
  dsimp only
  (repeat' split)
  · exact h
  · exact h
  · exact State.dropsWithin.of_rings (dropsWithin_acceptedChange (h.of_rings (by simp))) rfl
  · exact h

theorem dropsWithin_serveArm (h : s.dropsWithin) : (serveArm q s).dropsWithin := by
  unfold serveArm
  dsimp only
  (repeat' split)
  · exact dropsWithin_arm h
  · exact dropsWithin_arm h
  · exact h

theorem dropsWithin_stopRun (h : s.dropsWithin) : (stopRun s).dropsWithin := by
  unfold stopRun
  split
  · exact dropsWithin_halt h
  · exact dropsWithin_halt h
  · exact h
  · exact h

theorem dropsWithin_serveTriggerNow (h : s.dropsWithin) : (serveTriggerNow q s).dropsWithin := by
  unfold serveTriggerNow
  split
  · exact (dropsWithin_keptByClassifier.triggerRun h).of_rings rfl
  · exact h

theorem dropsWithin_serveRingConfig (h : s.dropsWithin) : (serveRingConfig q s).dropsWithin := by
  unfold serveRingConfig
  dsimp only
  split
  · exact h
  · split
    · exact h
    · split
      · exact h
      · split
        · exact h
        · split
          · exact h
          · exact dropsWithin_setRing h (Nat.zero_le _)

theorem dropsWithin_serveRingStart (h : s.dropsWithin) : (serveRingStart q s).dropsWithin := by
  unfold serveRingStart
  dsimp only
  (repeat' split)
  · exact h
  · exact h
  · next i _ _ =>
    exact dropsWithin_setRing (i := i) (r := { (s.cst.rings[i]'i.isLt) with state := .streaming }) h (h i)
  · exact h

theorem dropsWithin_serveRingStop (h : s.dropsWithin) : (serveRingStop q s).dropsWithin := by
  unfold serveRingStop
  dsimp only
  (repeat' split)
  · exact h
  · exact h
  · exact dropsWithin_setRing h (Nat.zero_le _)
  · exact h
  · exact h

theorem reset_dropsWithin : State.reset.dropsWithin := by
  simp [State.dropsWithin, State.reset, Cst.reset, Ring.reset]

theorem dropsWithin_exec {c : Instr} (hs : s.dropsWithin) (h : exec c s = .next t) : t.dropsWithin := by
  by_cases hw : WritesCst c
  swap
  · exact hs.of_rings (by rw [exec_cst h hw])
  · cases hw <;> obtain rfl := Host.Outcome.next.inj h
    case powerOnReset => exact State.dropsWithin.of_rings (s := State.reset) reset_dropsWithin rfl
    case softReset =>
      exact serveWhen_keeps hs fun _ _ _ _ _ => State.dropsWithin.of_rings (s := State.reset) reset_dropsWithin rfl
    case memoryReady => exact hs
    case tick => exact dropsWithin_keptByClassifier.tick (fun _ hu => hu) hs
    case laneAcceptance =>
      unfold laneAcceptance
      split
      · exact dropsWithin_acceptEdge hs
      · exact hs
    case bypassAcceptedChange i pin =>
      unfold laneBypass
      split
      · exact dropsWithin_acceptEdge (s := setLanePin i pin s) hs
      · exact hs
    case classifyRecord => exact dropsWithin_keptByClassifier.classifyNext (fun _ _ => trivial) hs
    case linkEgress => exact dropsWithin_linkEgress hs
    all_goals refine serveWhen_keeps hs fun _ rest _ _ _ => ?_
    case timeSetImmediate => exact dropsWithin_serveTimeSetImmediate hs
    case laneConfig => exact dropsWithin_serveLaneConfig hs
    case arm => exact dropsWithin_serveArm hs
    case stop => exact (dropsWithin_stopRun (s := taken rest s) hs).of_rings rfl
    case triggerNow => exact dropsWithin_serveTriggerNow hs
    case ringConfig => exact dropsWithin_serveRingConfig hs
    case ringStart => exact dropsWithin_serveRingStart hs
    case ringStop => exact dropsWithin_serveRingStop hs

end

end Sys2Proof.Machine
end

section
/-! The scan queue, the guarded SAFE requests and the link's lists stay within their places, and with them every store
(8.2, 9.5, 10.2). -/

namespace Sys2Proof.Machine

set_option Elab.async false

open Sys2Proof.Claims

section
variable {s t : State} {q : Request}

/-! ## The station scan queue -/

/-- At most 8 station scans are queued. -/
def State.scansWithin (s : State) : Prop := s.sce.queue.length ≤ 8

theorem State.scansWithin.of_queue (h : s.scansWithin) (e : t.sce.queue = s.sce.queue) : t.scansWithin := by
  rw [State.scansWithin, e]
  exact h

@[simp] theorem concludeScan_queue {o st l} : (concludeScan o st l s).sce.queue = s.sce.queue := by
  cases o <;> rfl

@[simp] theorem failUndriven_queue {o c f} : (failUndriven o c f s).sce.queue = s.sce.queue := by
  simp [failUndriven]

@[simp] theorem endDriven_queue {r x k y st} : (endDriven r x k y st s).sce.queue = s.sce.queue := by
  simp [endDriven]

@[simp] theorem setUpClock_queue {x} : (setUpClock x s).sce.queue = s.sce.queue := by
  unfold setUpClock
  split <;> rfl

@[simp] theorem completeClock_queue : (completeClock s).sce.queue = s.sce.queue := by
  fun_cases completeClock <;> simp [Sce.afterClock]
  split <;> rfl

@[simp] theorem sampled_queue {u : Sce} {x y} : (u.sampled x y).queue = u.queue := by
  simp only [Sce.sampled, Sce.rise, Sce.follow]
  split_ifs <;> rfl

/-- A scan taken from the queue leaves it shorter. -/
theorem Sce.next_queue {u w : Sce} {o c} (h : u.next = some (o, c, w)) : w.queue.length ≤ u.queue.length := by
  unfold Sce.next at h
  split at h
  · obtain rfl := (Prod.mk.inj (Prod.mk.inj (Option.some.inj h)).2).2
    exact le_rfl
  · split at h
    · next hq =>
      obtain rfl := (Prod.mk.inj (Prod.mk.inj (Option.some.inj h)).2).2
      simp [hq]
    · cases h

theorem scansWithin_arbitrateFor {n} (h : s.scansWithin) : (arbitrateFor n s).scansWithin := by
  induction n generalizing s with
  | zero => exact h
  | succ n ih =>
    unfold arbitrateFor
    split
    · split
      · exact h
      · next hnext =>
        have htaken := (Sce.next_queue hnext).trans h
        dsimp only
        split
        · exact ih (State.scansWithin.of_queue (s := { s with sce := _ }) htaken (by simp))
        · exact htaken
    · exact h

theorem scansWithin_arbitrate (h : s.scansWithin) : (arbitrate s).scansWithin := scansWithin_arbitrateFor h

theorem scansWithin_scanVerdict {x} (h : s.scansWithin) : (scanVerdict x s).scansWithin := by
  unfold scanVerdict
  split
  · split
    · exact scansWithin_arbitrate (h.of_queue (by simp))
    · split
      · exact scansWithin_arbitrate (h.of_queue (by simp))
      · split
        · exact scansWithin_arbitrate (h.of_queue (by simp))
        · exact h.of_queue (by simp [beginShift])
  · exact h

theorem scansWithin_scanFault {st y} (h : s.scansWithin) : (scanFault st y s).scansWithin := by
  unfold scanFault
  split
  · exact Nat.zero_le _
  · exact h

theorem scansWithin_injectScan {n} (h : s.scansWithin) : (injectScan n s).scansWithin := by
  unfold injectScan
  dsimp only
  split
  · exact scansWithin_arbitrate h
  · exact scansWithin_arbitrate h
  · exact scansWithin_arbitrate h
  · exact scansWithin_arbitrate h
  · exact h

theorem scansWithin_scanPowerEdge {i x} (h : s.scansWithin) : (scanPowerEdge i x s).scansWithin := by
  unfold scanPowerEdge
  split_ifs
  · exact scansWithin_scanFault h
  · exact h
  · exact h

theorem scansWithin_acceptedChange {i x v b} (h : s.scansWithin) : (acceptedChange i x v b s).scansWithin := by
  have hbefore : (decoderEdge i v (if b then timeSetEdge i x v s else s)).scansWithin :=
    h.of_queue (by split <;> simp)
  exact scansWithin_scanPowerEdge hbefore

theorem scansWithin_acceptEdge {i v} (h : s.scansWithin) : (acceptEdge i v s).scansWithin :=
  scansWithin_acceptedChange (h.of_queue (by split <;> rfl))

theorem scansWithin_keptByClassifier : KeptByClassifier (fun _ => True) State.scansWithin where
  registers _ h := h
  alert _ h := h
  inject _ h := scansWithin_injectScan h
  press _ _ h := h.of_queue (by simp)
  safe h := h.of_queue (by simp)
  capture _ _ h := h
  table _ h := h
  ring _ _ _ _ h := h.of_queue (by simp)
  scan _ h := scansWithin_scanVerdict h
  drive _ _ h := h.of_queue (by simp)

theorem scansWithin_serveScanSubmit (h : s.scansWithin) : (serveScanSubmit q s).scansWithin := by
  unfold serveScanSubmit
  split
  · exact h
  · next hroom =>
    split
    · exact h
    · split
      · exact h
      · refine scansWithin_arbitrate ?_
        simp only [Config.scanPlaces] at hroom
        simp only [State.scansWithin, List.length_append, List.length_singleton]
        omega

theorem scansWithin_serveLaneConfig (h : s.scansWithin) : (serveLaneConfig q s).scansWithin := by
  unfold serveLaneConfig
  dsimp only
  (repeat' split)
  · exact h
  · exact h
  · exact State.scansWithin.of_queue (scansWithin_acceptedChange (h.of_queue (by simp))) rfl
  · exact h

theorem scansWithin_exec {c : Instr} (hs : s.scansWithin) (h : exec c s = .next t) : t.scansWithin := by
  by_cases hw : WritesSce c
  swap
  · exact hs.of_queue (by rw [exec_sce h hw])
  · cases hw <;> obtain rfl := Host.Outcome.next.inj h
    case powerOnReset => exact Nat.zero_le _
    case softReset => exact serveWhen_keeps hs fun _ _ _ _ _ => Nat.zero_le _
    case tick => exact scansWithin_keptByClassifier.tick (fun _ hu => hu) hs
    case laneAcceptance =>
      unfold laneAcceptance
      split
      · exact scansWithin_acceptEdge hs
      · exact hs
    case bypassAcceptedChange i pin =>
      unfold laneBypass
      split
      · exact scansWithin_acceptEdge (s := setLanePin i pin s) hs
      · exact hs
    case classifyRecord => exact scansWithin_keptByClassifier.classifyNext (fun _ _ => trivial) hs
    case scanComplete =>
      unfold scanComplete
      (repeat' split)
      · exact scansWithin_arbitrate (hs.of_queue (by simp))
      all_goals exact hs
    case returnClockTimeout =>
      unfold returnClockTimeout
      split
      · exact scansWithin_scanFault hs
      · exact hs
    case abortPauseReached =>
      unfold abortPauseReached
      (repeat' split)
      · exact scansWithin_arbitrate (hs.of_queue (by simp))
      all_goals exact hs
    case tckClock =>
      refine hs.of_queue ?_
      unfold tckClock
      dsimp only
      split <;> simp [sampleReturn]
    all_goals refine serveWhen_keeps hs fun _ rest _ _ _ => ?_
    case laneConfig => exact scansWithin_serveLaneConfig hs
    case scanSubmit => exact scansWithin_serveScanSubmit hs
    case scanConfig =>
      unfold serveScanConfig
      (repeat' split) <;> exact hs
    case scanAbortBoundary =>
      unfold serveScanAbortBoundary
      split
      · exact Nat.zero_le _
      · exact hs
    case scanAbortImmediate =>
      unfold serveScanAbortImmediate
      dsimp only
      split
      · exact Nat.zero_le _
      · exact hs
    case slotLoad =>
      unfold serveSlotLoad
      (repeat' split) <;> exact hs

/-! ## SAFE requests in guard -/

/-- At most one SAFE request of the sequencer is in guard. -/
def State.guardsWithin (s : State) : Prop := s.dcu.safeGuard.count none ≤ 1

theorem State.guardsWithin.of_guards (h : s.guardsWithin) (e : t.dcu.safeGuard = s.dcu.safeGuard) : t.guardsWithin := by
  rw [State.guardsWithin, e]
  exact h

@[simp] theorem moveLine_safeGuard {d st} : (moveLine d st s).dcu.safeGuard = s.dcu.safeGuard := by
  rw [moveLine_dcu, Dcu.setLine_safeGuard]

@[simp] theorem deferOrAssert_safeGuard {d r} : (deferOrAssert d r s).dcu.safeGuard = s.dcu.safeGuard := by
  unfold deferOrAssert
  split <;> simp [assertLine]

@[simp] theorem lineVerdict_safeGuard {x d} : (lineVerdict x d s).dcu.safeGuard = s.dcu.safeGuard := by
  unfold lineVerdict
  dsimp only
  (repeat' split) <;> simp

@[simp] theorem enterSafe_safeGuard : (enterSafe s).dcu.safeGuard = s.dcu.safeGuard := by
  by_cases hm : s.dcu.mode = .safe
  · rw [enterSafe_inSafe s hm]
  · have hlines := forEach_same (fun u : State => u.dcu.safeGuard) safeLine (List.finRange 8) s fun d u =>
      (safeLine_line d 0 u).2.2.2.2
    rw [enterSafe_dcu s hm]
    generalize forEach (List.finRange 8) safeLine s = u at hlines ⊢
    exact hlines

@[simp] theorem takeLineRequest_safeGuard {d r} : (takeLineRequest d r s).dcu.safeGuard = s.dcu.safeGuard := by
  unfold takeLineRequest takeInNormal
  (repeat' split) <;> simp [guardStep, retrigger]

theorem guardsWithin_takeSafeRequest {o} (h : s.guardsWithin) : (takeSafeRequest o s).guardsWithin := by
  unfold takeSafeRequest
  split
  · exact h.of_guards (by simp)
  · split
    · exact h
    · next hnew =>
      simp only [State.guardsWithin, produce_dcu, List.count_append, List.count_singleton] at h ⊢
      cases o with
      | some => simpa using h
      | none =>
        have hnone : none ∉ s.dcu.safeGuard := fun hin => hnew ⟨rfl, hin⟩
        simp [List.count_eq_zero_of_not_mem hnone]

theorem guardsWithin_driveVerdict {x k} (h : s.guardsWithin) : (driveVerdict x k s).guardsWithin := by
  unfold driveVerdict safeVerdict
  dsimp only
  split
  · split
    · exact h
    · next o rest hguard =>
      have hrest : rest.count none ≤ 1 := by
        rw [State.guardsWithin, hguard] at h
        exact List.count_le_count_cons.trans h
      split
      · rw [State.guardsWithin, respondTo_dcu]
        exact hrest
      · rw [State.guardsWithin, respondTo_dcu, enterSafe_safeGuard]
        exact hrest
  · exact h.of_guards (by simp)

theorem guardsWithin_keptByClassifier : KeptByClassifier (fun _ => True) State.guardsWithin where
  registers _ h := h
  alert _ h := h
  inject _ h := h.of_guards (by simp)
  press _ _ h := h.of_guards (by simp [sequencerPress])
  safe h := guardsWithin_takeSafeRequest h
  capture _ _ h := h
  table _ h := h
  ring _ _ _ _ h := h.of_guards (by simp)
  scan _ h := h.of_guards (by simp)
  drive _ _ h := guardsWithin_driveVerdict h

theorem guardsWithin_conversionEnd {x} (h : s.guardsWithin) : (conversionEnd x s).guardsWithin := by
  refine h.of_guards ?_
  have hresult {c : Fin 8} {u : State} : (conversionResult c x u).dcu.safeGuard = u.dcu.safeGuard := by
    simp only [conversionResult, protectStage]
    split <;> simp
  unfold conversionEnd
  split
  · exact hresult
  · rfl

theorem guardsWithin_exec {c : Instr} (hs : s.guardsWithin) (h : exec c s = .next t) : t.guardsWithin := by
  by_cases hw : WritesDcu c
  swap
  · exact hs.of_guards (by rw [exec_dcu h hw])
  · cases hw <;> obtain rfl := Host.Outcome.next.inj h
    case powerOnReset => exact Nat.zero_le _
    case softReset => exact serveWhen_keeps hs fun _ _ _ _ _ => Nat.zero_le _
    case tick => exact guardsWithin_keptByClassifier.tick (fun _ hu => hu) hs
    case conversionEnd => exact guardsWithin_conversionEnd hs
    case classifyRecord => exact guardsWithin_keptByClassifier.classifyNext (fun _ _ => trivial) hs
    case pressEnd =>
      refine hs.of_guards ?_
      unfold pressEnd
      (repeat' split) <;> simp
    case deferralExpiry =>
      refine hs.of_guards ?_
      unfold deferralExpiry
      (repeat' split) <;> simp
    all_goals refine serveWhen_keeps hs fun q rest _ _ _ => ?_
    case modeSetSafe =>
      unfold serveModeSetSafe
      split
      · exact guardsWithin_takeSafeRequest hs
      · exact hs
    all_goals refine State.guardsWithin.of_guards (s := s) hs ?_
    case lineSetAssert =>
      unfold serveLineSetAssert
      (repeat' split) <;> simp
    case lineSetRelease =>
      unfold serveLineSetRelease releaseLine
      (repeat' split) <;> simp [releaseActive]
    case linePress =>
      unfold serveLinePress
      split <;> simp
    case lineConfig =>
      unfold serveLineConfig
      dsimp only
      (repeat' split) <;> simp
    case pairConfig =>
      unfold servePairConfig
      (repeat' split) <;> simp [setPair]
    case pairConfigClear =>
      unfold servePairConfigClear
      (repeat' split) <;> simp [setPair]
    case modeSetNormal =>
      unfold serveModeSetNormal setMode
      (repeat' split) <;> simp
    case modeSetHold =>
      unfold serveModeSetHold setMode
      (repeat' split) <;> simp

/-! ## The ingress queue and the owed list -/

/-- The ingress queue and the owed list are within their places. -/
def State.listsWithin (s : State) : Prop := s.slu.ingress.length ≤ 8 ∧ s.slu.owed.length ≤ 64

theorem ReportedServing.listsWithin {A : Record → Prop} (h : ReportedServing A s t) (hs : s.listsWithin) :
    t.listsWithin := by
  obtain ⟨hin, howed⟩ := hs
  rcases h with h | ⟨q, rest, hq, h⟩
  · exact ⟨h.ingress ▸ hin, h.owed_length ▸ howed⟩
  · rw [hq, List.length_cons] at hin
    exact ⟨by rw [h.ingress]; simp only [taken]; omega, h.owed_length ▸ howed⟩

theorem listsWithin_frameArrival {f} (h : s.listsWithin) : (frameArrival f s).listsWithin := by
  obtain ⟨hin, howed⟩ := h
  unfold frameArrival
  split
  · next hacc =>
    have hroom : s.slu.owed.length < 64 := by
      simp only [State.acceptsFrame, Bool.and_eq_true, decide_eq_true_eq] at hacc
      exact hacc.2
    unfold checkHeader
    dsimp only
    split_ifs
    · refine ⟨hin, ?_⟩
      simp only [respond, Slu.answer_owed, List.length_map, Slu.acceptFrame, List.length_append, List.length_singleton]
      omega
    · refine ⟨hin, ?_⟩
      simp only [respond, Slu.answer_owed, List.length_map, Slu.acceptFrame, List.length_append, List.length_singleton]
      omega
    · next hfull =>
      simp only [Config.ingressPlaces, Slu.acceptFrame] at hfull
      simp only [State.listsWithin, Slu.acceptFrame, List.length_append, List.length_singleton]
      omega
  · exact ⟨hin, howed⟩

theorem listsWithin_exec {c : Instr} (hs : s.listsWithin) (h : exec c s = .next t) : t.listsWithin := by
  by_cases hc : ReshapesLink c
  swap
  · exact (exec_reported takesShortBodies_true (takesOpenRecords_true s) h hc).listsWithin hs
  · cases hc <;> obtain rfl := Host.Outcome.next.inj h
    case powerOnReset => exact ⟨Nat.zero_le _, Nat.zero_le _⟩
    case softReset =>
      refine serveWhen_keeps hs fun q rest _ _ _ => ⟨Nat.zero_le _, ?_⟩
      have hanswers := reported_done (A := fun _ => True) (p := []) (q := q)
        (reported_forEach (l := s.slu.outstanding q.ticket) (f := fun r u => respond r .aborted [] u)
          (fun _ _ => reported_respond) (Reported.refl (s := taken rest s)))
      exact hanswers.owed_length.trans_le hs.2
    case admission =>
      unfold admitNext
      split <;> exact hs
    case frameArrival => exact listsWithin_frameArrival hs
    case linkEgress =>
      unfold linkEgress egress egressExport formExport Slu.announce
      dsimp only
      (repeat' split) <;> exact hs
    case frameSent =>
      unfold frameSent
      (repeat' split)
      · exact hs
      · exact ⟨hs.1, (List.length_filter_le _ _).trans hs.2⟩
      · exact hs

/-! ## Steps -/

theorem keptByBytes_count : KeptByBytes fun o => o.count ≤ 65535 where
  opened _ := Nat.zero_le _
  addressed _ h := h
  added _ _ := Nat.min_le_left ..

theorem queueWithin_exec {c : Instr} (hs : s.cle.queue.length ≤ 64 ∧ s.cle.hitsWithin) (h : exec c s = .next t) :
    t.cle.queue.length ≤ 64 ∧ t.cle.hitsWithin := by
  obtain ⟨hqueue, hhits⟩ := hs
  by_cases hc : MovesQueue c
  swap
  · obtain ⟨heq, hkeep⟩ := exec_retabled h hc
    exact ⟨heq ▸ hqueue, hkeep hhits⟩
  · cases hc <;> obtain rfl := Host.Outcome.next.inj h
    case powerOnReset => exact ⟨Nat.zero_le _, Cle.hitsWithin_zero rfl⟩
    case softReset =>
      exact serveWhen_keeps (P := fun u => u.cle.queue.length ≤ 64 ∧ u.cle.hitsWithin) ⟨hqueue, hhits⟩
        fun _ _ _ _ _ => ⟨Nat.zero_le _, Cle.hitsWithin_zero rfl⟩
    case admission =>
      cases hadm : s.admits with
      | none =>
        rw [admitNext_none hadm]
        exact ⟨hqueue, hhits⟩
      | some i =>
        obtain ⟨heq, hsame, -⟩ := admitNext_of_admits hadm
        have hroom := (admits_some hadm).1
        refine ⟨?_, fun k => by rw [hsame]; exact hhits k⟩
        rw [heq, List.length_append, List.length_take]
        omega
    case classifyRecord =>
      obtain ⟨heq, hkeep⟩ := classifyNext_retabled s
      refine ⟨?_, hkeep hhits⟩
      rw [heq, List.length_tail]
      omega

theorem storesWithin_exec {c : Instr} (hs : s.storesWithin) (h : exec c s = .next t) : t.storesWithin := by
  obtain ⟨hhold, hqueue, hhits, hin, howed, hscans, hguards, hglitch, hcheck, hbuses, hdrops⟩ := hs
  have hhold' := exec_hold_each (P := Hold.within) takesShortBodies_true (takesOpenRecords_true s)
    (by simp [Hold.within, Hold.reset]) (fun _ _ _ => Hold.within_accept)
    (fun _ hne hh => Hold.within_release hh hne) hhold h
  obtain ⟨hqueue', hhits'⟩ := queueWithin_exec ⟨hqueue, hhits⟩ h
  obtain ⟨hin', howed'⟩ := listsWithin_exec ⟨hin, howed⟩ h
  obtain ⟨hglitch', hcheck'⟩ := tapWithin_exec ⟨hglitch, hcheck⟩ h
  exact ⟨hhold', hqueue', hhits', hin', howed', scansWithin_exec hscans h, guardsWithin_exec hguards h, hglitch',
    hcheck', busesHold_exec keptByBytes_count hbuses h, dropsWithin_exec hdrops h⟩

theorem tickClock_queue {u : Sce} {x y} : (u.tickClock x y).queue = u.queue := by
  unfold Sce.tickClock
  split
  · rw [sampled_queue]
  · rfl

theorem storesWithin_coreClock (hs : s.storesWithin) : (coreClock s).storesWithin := by
  obtain ⟨hhold, hqueue, hhits, hin, howed, hscans, hguards, hglitch, hcheck, hbuses, hdrops⟩ := hs
  refine ⟨hhold, hqueue, hhits, hin, howed, ?_, hguards, fun i => ?_, ClockCheck.count_within hcheck _ _ _,
    fun g o ho => hbuses g o ?_, hdrops⟩
  · rw [show (coreClock s).sce.queue = s.sce.queue from tickClock_queue]
    exact hscans
  · rw [show ((coreClock s).stu.lanes[i]'i.isLt) = (s.stu.lanes[i]'i.isLt).tickClock from mapAll_get _ _ i]
    exact hglitch i
  · rw [show ((coreClock s).btu.buses[g]'g.isLt) = (s.btu.buses[g]'g.isLt).tickClock from mapAll_get _ _ g] at ho
    exact ho

/-- Settles O56: every command keeps each store within its places, and a core clock counts only what saturates. -/
theorem storesStayWithinTheirPlaces : Obligations.StoresStayWithinTheirPlaces := by
  intro s t hs h
  exact step_keeps (P := State.storesWithin) (fun _ _ hu => hu) (fun _ _ _ hu he => storesWithin_exec hu he)
    (fun _ => storesWithin_coreClock) hs h

end

/-! ## A formed frame that answers a request -/

/-- A frame of exported entries, formed and not yet begun, that carries the number of a request. -/
def answeringFrame : OutFrame := { dst := 0, src := 0, payload := [], answers := some 0 }

/-- The reset state with a station known and that frame formed; the link is about to begin a frame. -/
def answeringFormed : State :=
  { State.reset with
    pending := [.linkEgress true]
    slu := { State.reset.slu with station := some 0, formed := some answeringFrame } }

/-- The frame begun. -/
def answeringBegun : State :=
  { State.reset with
    slu := { State.reset.slu with station := some 0, sending := some answeringFrame } }

theorem step_answeringFormed : step answeringFormed = .next answeringBegun := rfl

theorem answeringFormed_answersOnce : answeringFormed.answersOnce := reset_answersOnce

theorem answeringFormed_holdersSingle : answeringFormed.holdersSingle := reset_holdersSingle

/-- The frame being sent answers request 0, which the owed list does not have. -/
theorem not_answeringBegun_answersOnce : ¬answeringBegun.answersOnce := by
  rintro ⟨-, -, -, hmade⟩
  exact absurd hmade.length_eq (by decide)

/-- Refutes O59: its hypotheses say nothing of a frame formed for egress, so the frame may name a request as answered; once
begun on the link it stands for a response that no request on the owed list has. -/
theorem not_everyRequestIsAnsweredOnce : ¬ Obligations.EveryRequestIsAnsweredOnce := by
  intro h
  exact not_answeringBegun_answersOnce
    (h answeringFormed answeringBegun answeringFormed_answersOnce answeringFormed_holdersSingle step_answeringFormed).1

end Sys2Proof.Machine
end

section
/-! One core clock at every block, and the time base (chapter 1): the advance, the counters of core clocks, TIME SET. -/

namespace Sys2Proof.Machine

set_option Elab.async false

open Sys2Proof.Claims

/-! ## Request rows at the head of the queue -/

section
variable {c : Instr} {code : Byte} {fits : List Byte → Bool} {handler : Request → State → State} {s : State}
  {q : Request}
  {rest : List Request}

/-- A row that serves every payload of its code runs its handler on the queue's rest. -/
theorem exec_head (hrow : exec c s = .next (serve code handler s)) (h : headIs s q rest code) :
    exec c s = .next (handler q (taken rest s)) := by
  obtain ⟨hq, hc⟩ := h
  rw [hrow, serve_head hq hc]
  rfl

/-- So does a row of one mode of its code, on a payload of the mode. -/
theorem exec_head_when (hrow : exec c s = .next (serveWhen code fits handler s)) (h : headIs s q rest code)
    (hf : fits q.payload = true) : exec c s = .next (handler q (taken rest s)) := by
  obtain ⟨hq, hc⟩ := h
  rw [hrow, serveWhen_head hq hc hf]
  rfl

end

/-! ## What is not due on a clock that passes -/

section
variable {s : State}

theorem tick_of_dueEvents (h : dueEvents s = []) : s.tbu.tickDue = false := by
  simp only [dueEvents, List.append_eq_nil_iff] at h
  obtain ⟨⟨⟨-, htick⟩, -⟩, -⟩ := h
  unfold dueIf at htick
  split at htick
  · cases htick
  · next hd => exact Bool.eq_false_iff.mpr hd

theorem check_of_dueEvents (h : dueEvents s = []) : s.stu.check.over = false := by
  simp only [dueEvents, List.append_eq_nil_iff] at h
  obtain ⟨⟨⟨⟨⟨⟨⟨⟨⟨-, hcheck⟩, -⟩, -⟩, -⟩, -⟩, -⟩, -⟩, -⟩, -⟩ := h
  unfold checkDue dueIf at hcheck
  split at hcheck
  · cases hcheck
  · next hd => exact Bool.eq_false_iff.mpr hd

theorem console_of_dueEvents (h : dueEvents s = []) (r : Fin 2) (he : (s.btu.consoles[r]'r.isLt).enabled = true) :
    (s.btu.consoles[r]'r.isLt).tickDue = false := by
  simp only [dueEvents, List.append_eq_nil_iff] at h
  obtain ⟨⟨-, hcons⟩, -⟩ := h
  have hr := List.flatMap_eq_nil_iff.mp hcons r (List.mem_finRange r)
  obtain ⟨htick, -⟩ := List.append_eq_nil_iff.mp hr
  split at htick
  · split at htick <;> cases htick
  · next hd => exact Bool.eq_false_iff.mpr fun ht => hd (by rw [he, ht]; rfl)

end

/-! ## The advance -/

theorem Tbu.increment_of_inFrame {u : Tbu} (h : tbuInFrame u) :
    u.increment = if u.frameClock = u.period ∧
      (∃ k < 4, u.trim.natAbs.testBit k = true ∧ u.framePeriod ∈ namedPeriods k)
      then 8 + u.trim.sign else 8 := by
  obtain ⟨-, -, -, hlow, hhigh, -, hclock⟩ := h
  have hsel : trimSelects u.trim u.framePeriod = true ↔ _ := trimSelects_iff_selected u.trim hlow hhigh
  have hlast : u.period ≤ u.frameClock ↔ u.frameClock = u.period := ⟨fun h => Nat.le_antisymm hclock h, fun h => h.ge⟩
  refine if_congr ?_ rfl rfl
  rw [Bool.and_eq_true, decide_eq_true_eq, hlast, hsel]
  rfl

theorem Tbu.increment_mem (u : Tbu) : u.increment = 7 ∨ u.increment = 8 ∨ u.increment = 9 := by
  unfold Tbu.increment
  split
  · rcases Int.sign_trichotomy u.trim with h | h | h <;> simp [h]
  · exact .inr (.inl rfl)

theorem Tbu.advance_divider (u : Tbu) : u.advance.divider = if 125 ≤ u.divider then 1 else u.divider + 1 := rfl

theorem Tbu.advance_tickDue (u : Tbu) : u.advance.tickDue = (u.tickDue || decide (125 ≤ u.divider)) := rfl

/-- Up to the clock before a tick the divider counts, and no tick is due. -/
theorem Tbu.iterate_divider {u : Tbu} (hd : u.divider = 1) (ht : u.tickDue = false) :
    ∀ k ≤ 124, (Tbu.advance^[k] u).divider = k + 1 ∧ (Tbu.advance^[k] u).tickDue = false := by
  intro k
  induction k with
  | zero => exact fun _ => ⟨hd, ht⟩
  | succ k ih =>
    intro hk
    obtain ⟨hdiv, hdue⟩ := ih (by omega)
    rw [Function.iterate_succ_apply', advance_divider, advance_tickDue, hdiv, hdue]
    exact ⟨if_neg (by omega), by simp; omega⟩

theorem Tbu.iterate_tickDue {u : Tbu} (hd : u.divider = 1) (ht : u.tickDue = false) {k : Nat} (hk : k ≤ 125) :
    (Tbu.advance^[k] u).tickDue = decide (k = 125) := by
  rcases Nat.lt_or_eq_of_le hk with hlt | rfl
  · rw [(iterate_divider hd ht k (by omega)).2]
    exact (decide_eq_false hlt.ne).symm
  · obtain ⟨hdiv, hdue⟩ := iterate_divider hd ht 124 le_rfl
    rw [Function.iterate_succ_apply', advance_tickDue, hdiv, hdue]
    rfl

/-! ## The counters of core clocks -/

theorem Filter.tickClock_steady : Filter.tickClock .steady = .steady := rfl
theorem Filter.tickClock_pending (t0 : Stamp) (n : Nat) : Filter.tickClock (.pending t0 n) = .pending t0 (n + 1) := rfl

theorem Lane.tickClock_steady {l : Lane} (h : l.filter = .steady) : l.tickClock = l := by
  rw [Lane.tickClock, h, Filter.tickClock_steady, ← h]

theorem LineFilter.tickClock_steady {f : LineFilter} (h : f.filter = .steady) : f.tickClock = f := by
  rw [LineFilter.tickClock, h, Filter.tickClock_steady, ← h]

theorem Bus.tickClock_line (b : Bus) (l : BusLine) : b.tickClock.line l = (b.line l).tickClock := by cases l <;> rfl

theorem Console.tickClock_eq {c : Console} (ht : c.enabled = true → c.tickDue = false) :
    c.tickClock =
      if c.enabled = true then
        { c with
          tickCounter := if c.divisor ≤ c.tickCounter then 1 else c.tickCounter + 1
          tickDue := decide (c.divisor ≤ c.tickCounter), idleTimer := c.idleTimer.map (· + 1) }
      else c := by
  unfold Console.tickClock
  split
  · next he => simp only [ht he, decide_eq_true_eq, Bool.false_or]
  · rfl

theorem Sce.tickClock_idle {u : Sce} (h : u.phase = .free ∨ u.phase = .guard) (rclk tdo : Bool) :
    u.tickClock rclk tdo = u := by
  rw [Sce.tickClock, if_neg]
  rcases h with h | h <;> simp [Sce.drives, h]

theorem Tbu.base_of_increment {u : Tbu} :
    u.advance.base = u.base + 7 ∨ u.advance.base = u.base + 8 ∨ u.advance.base = u.base + 9 := by
  rw [advance_base]
  rcases u.increment_mem with h | h | h <;> rw [h]
  · exact .inl rfl
  · exact .inr (.inl rfl)
  · exact .inr (.inr rfl)

theorem applyTimeSet_base (v : Stamp) (q : Ticket) (s : State) : (applyTimeSet v q s).tbu.base = v := by
  simp [applyTimeSet, produce_tbu]

section
variable {s : State}

theorem coreClock_console (r : Fin 2) : ((coreClock s).btu.consoles[r]'r.isLt) = (s.btu.consoles[r]'r.isLt).tickClock :=
  mapAll_get Console.tickClock s.btu.consoles r

theorem coreClock_lane (i : Fin 16) : ((coreClock s).stu.lanes[i]'i.isLt) = (s.stu.lanes[i]'i.isLt).tickClock :=
  mapAll_get Lane.tickClock s.stu.lanes i

theorem coreClock_bus (g : Fin 2) : ((coreClock s).btu.buses[g]'g.isLt) = (s.btu.buses[g]'g.isLt).tickClock :=
  mapAll_get Bus.tickClock s.btu.buses g

/-- On a clock that passes, a running check has room in its counters. -/
theorem coreClock_check {q : Ticket} (h : dueEvents s = []) (hq : s.stu.check.running = some q) :
    (coreClock s).stu.check =
      { running := some q, core := min 255 (s.stu.check.core + 1)
        bref := min 255 (s.stu.check.bref + s.pins.brefEdges.toNat)
        rclk := min 255 (s.stu.check.rclk + s.pins.rclkEdges.toNat) } := by
  rw [← hq]
  exact s.stu.check.count_running _ _ _ (by rw [hq]; rfl) (check_of_dueEvents h)

end

/-- Settles O4: on an empty queue with nothing due a step is one core clock, block by block. -/
theorem coreClockAdvancesTimeBaseAndCounters : Obligations.CoreClockAdvancesTimeBaseAndCounters := by
  refine ⟨fun s hp hd hu => ⟨_, step_clock hp hd, ?_, Tbu.base_of_increment⟩, fun u hb ht => ?_, applyTimeSet_base,
    fun u hd ht k hk => Tbu.iterate_tickDue hd ht hk, fun s hp hd =>
      ⟨_, step_clock hp hd, rfl, rfl, ?_, fun i => ?_, rfl,
    fun hq => s.stu.check.count_idle _ _ _ hq, fun q hq => coreClock_check hd hq, rfl, rfl, rfl,
    fun c => mapAll_get Channel.tickClock s.rmu.channels c, ?_, ?_, rfl, fun hph => Sce.tickClock_idle hph _ _,
    rfl, rfl, rfl, rfl, rfl, rfl, rfl, rfl, hp, rfl, rfl⟩⟩
  · exact congrArg (fun n => s.tbu.base + BitVec.ofInt 48 n) (Tbu.increment_of_inFrame hu)
  · have hinc : u.increment = 8 := by simp [Tbu.increment, ht]
    rw [Tbu.advance_base, hb, hinc]
    rfl
  · change (s.tbu.tickDue || decide (125 ≤ s.tbu.divider)) = true ↔ 125 ≤ s.tbu.divider
    rw [tick_of_dueEvents hd, Bool.false_or, decide_eq_true_eq]
  · rw [coreClock_lane]
    refine ⟨Lane.tickClock_steady, fun t0 n hf => ?_⟩
    rw [Lane.tickClock, hf, Filter.tickClock_pending]
  · rintro g b rfl
    rw [coreClock_bus]
    refine ⟨?_, fun l hf => ?_, fun l t0 n hf => ?_⟩
    · simp only [Bus.tickClock, Bool.and_eq_true, Bool.not_eq_true']
    · rw [Bus.tickClock_line, LineFilter.tickClock_steady hf]
    · rw [Bus.tickClock_line, LineFilter.tickClock, hf, Filter.tickClock_pending]
  · rintro r c rfl
    rw [coreClock_console]
    exact Console.tickClock_eq (console_of_dueEvents hd r)

/-! ## Alerts once pending -/

/-- The alert of index i is pending. -/
def State.alerting (s : State) (i : Fin 16) : Prop := (s.slu.alerts[i]'i.isLt).pending = true

section
variable {s : State} {i : Fin 16}

theorem alerting_setAlert {a : AlertSource} (h : s.alerting i) : (setAlert a s).alerting i := by
  rw [State.alerting, alertPending_setAlert, h, Bool.true_or]

theorem alerting_setAlert_self (a : AlertSource) (s : State) : (setAlert a s).alerting a.index := by
  rw [State.alerting, alertPending_setAlert, decide_eq_true rfl, Bool.or_true]

theorem alerting_produce {r : Record} (h : s.alerting i) : (produce r s).alerting i := by
  rw [State.alerting, produce_slu]
  split
  · exact alerting_setAlert (a := .recordLoss) h
  · exact h

theorem alerting_respondTo {q : Option Ticket} {st : Status} {p : List Byte} (h : s.alerting i) :
    (respondTo q st p s).alerting i := by
  cases q <;> exact h

theorem alerting_concludeScan {o : ScanOrigin} {st : Status} {l : List Bool} (h : s.alerting i) :
    (concludeScan o st l s).alerting i := by
  unfold concludeScan
  split <;> exact h

theorem State.alerting.of_alerts {t : State} (h : s.alerting i) (e : t.slu.alerts = s.slu.alerts) : t.alerting i := by
  rwa [State.alerting, e]

theorem alerting_flush (h : s.alerting i) : (flush s).alerting i := by
  have hflushed : (flush s).slu.alerts = s.slu.alerts :=
    forEach_keeps (fun t => t.slu.alerts = s.slu.alerts)
      (fun (q : StationScan) t => respond q.ticket .aborted (resultBytes []) t) s.sce.queue s (fun _ _ _ ht => ht) rfl
  exact h.of_alerts hflushed

theorem alerting_scanFault {st : Status} {y : ScanReason} (h : s.alerting i) : (scanFault st y s).alerting i := by
  unfold scanFault
  split
  · exact alerting_setAlert (alerting_flush (alerting_concludeScan (alerting_produce h)))
  · exact h

theorem alerting_scanPowerEdge {lane : Fin 16} {level : Bool} (h : s.alerting i) :
    (scanPowerEdge lane level s).alerting i := by
  unfold scanPowerEdge
  split_ifs
  · exact alerting_scanFault h
  · exact h
  · exact h

theorem alerting_expireEpisode (h : s.alerting i) : (expireEpisode s).alerting i := by
  unfold expireEpisode
  dsimp only
  (repeat' split)
  · exact h
  · exact h
  · exact alerting_setAlert (alerting_produce (alerting_produce h))
  · exact alerting_produce h

theorem alerting_decoderEdge {lane : Fin 16} {t0 : Stamp} (h : s.alerting i) : (decoderEdge lane t0 s).alerting i := by
  unfold decoderEdge
  dsimp only
  (repeat' split)
  · exact alerting_expireEpisode h
  · exact h
  · exact h

end

/-! ## TIME SET (R15-R17) -/

theorem applyTimeSet_eq (v : Stamp) (q : Ticket) (s : State) :
    applyTimeSet v q s =
      answered q .done (num 6 v.toNat)
        (setAlert .timeSetApplied
          { produce (newRecord 32 .timeSet v (v.setWidth 32)) { s with tbu := { s.tbu with base := v } } with
            cst := { s.cst with rings := mapAll (fun r => { r with markDue := true }) s.cst.rings } }) := by
  rfl

theorem applyTimeSet_alerting (v : Stamp) (q : Ticket) (s : State) : (applyTimeSet v q s).alerting 15 :=
  alerting_setAlert_self .timeSetApplied _

section
variable {s : State} {q : Request} {rest : List Request}

theorem exec_timeSetImmediate_head (h : headIs s q rest codeTimeSet)
    (hf : modeFits 0 0 2 q.payload = true) :
    exec .timeSetImmediate s = .next (serveTimeSetImmediate q (taken rest s)) :=
  exec_head_when rfl h hf

theorem exec_timeSetArmed_head (h : headIs s q rest codeTimeSet) (hf : modeFits 0 1 2 q.payload = true) :
    exec .timeSetArmed s = .next (serveTimeSetArmed q (taken rest s)) :=
  exec_head_when rfl h hf

theorem exec_timeSetCancel_head (h : headIs s q rest codeTimeSet) (hf : modeFits 0 2 2 q.payload = true) :
    exec .timeSetCancel s = .next (serveTimeSetCancel q (taken rest s)) :=
  exec_head_when rfl h hf

theorem withdrawArmed_none {st : Status} (h : s.tbu.armed = none) : withdrawArmed st s = s := by
  rw [withdrawArmed, h]

theorem withdrawArmed_some {st : Status} {a : ArmedSet} (h : s.tbu.armed = some a) :
    withdrawArmed st s = answered a.ticket st [] { s with tbu := { s.tbu with armed := none } } := by
  rw [withdrawArmed, h]
  rfl

theorem serveTimeSetImmediate_own (h : byteAt q.payload 0 = 0) :
    serveTimeSetImmediate q s =
      applyTimeSet (BitVec.ofNat 48 (numAt q.payload 2 6)) q.ticket (withdrawArmed .superseded s) := if_pos h

theorem serveTimeSetArmed_lane (h : byteAt q.payload 0 = 1) (hl : 16 ≤ byteAt q.payload 1) :
    serveTimeSetArmed q s = refuse q .range s := by
  rw [serveTimeSetArmed, if_pos h, toFin_none hl]

theorem serveTimeSetArmed_off {i : Fin 16} (h : byteAt q.payload 0 = 1) (hl : byteAt q.payload 1 = i.val)
    (hm : (s.stu.lanes[i]'i.isLt).mode = .off) : serveTimeSetArmed q s = refuse q .state s := by
  rw [serveTimeSetArmed, if_pos h, toFin_of_eq hl]
  exact if_neg (by rw [hm]; decide)

/-- The set a TIME SET with mode ARMED asks for. -/
def armedSet (q : Request) (i : Fin 16) : ArmedSet :=
  { lane := i, value := BitVec.ofNat 48 (numAt q.payload 2 6), ticket := q.ticket }

theorem serveTimeSetArmed_sense {i : Fin 16} (h : byteAt q.payload 0 = 1) (hl : byteAt q.payload 1 = i.val)
    (hm : (s.stu.lanes[i]'i.isLt).mode = .sense) :
    serveTimeSetArmed q s =
      { withdrawArmed .superseded s with
        tbu := { (withdrawArmed .superseded s).tbu with armed := some (armedSet q i) } } := by
  rw [serveTimeSetArmed, if_pos h, toFin_of_eq hl]
  exact if_pos hm

theorem serveTimeSetCancel_none (h : byteAt q.payload 0 = 2) (ha : s.tbu.armed = none) :
    serveTimeSetCancel q s = refuse q .state s := by
  rw [serveTimeSetCancel, if_pos h, ha]
  rfl

theorem serveTimeSetCancel_some {a : ArmedSet} (h : byteAt q.payload 0 = 2) (ha : s.tbu.armed = some a) :
    serveTimeSetCancel q s = done q [] (withdrawArmed .aborted s) := by
  rw [serveTimeSetCancel, if_pos h, ha]
  rfl

/-! ## The armed set and its lane (R15, R16) -/

section
variable {a : ArmedSet} {t0 : Stamp}

theorem timeSetEdge_lane (ha : s.tbu.armed = some a) (level : Bool) :
    timeSetEdge a.lane level t0 s =
      if level then applyTimeSet (a.value + (s.tbu.base - t0)) a.ticket { s with tbu := { s.tbu with armed := none } }
      else s := by
  rw [timeSetEdge, ha]
  exact if_congr (and_iff_right rfl) rfl rfl

theorem timeSetEdge_other {i : Fin 16} (ha : s.tbu.armed = some a) (hi : i ≠ a.lane) (level : Bool) :
    timeSetEdge i level t0 s = s := by
  rw [timeSetEdge, ha]
  exact if_neg fun h => hi h.1.symm

/-- An armed set applied leaves the time base on the new line, no set armed, the alert pending and every ring with a
mark due, whatever the other users of the lane then do. -/
theorem acceptedChange_armed (ha : s.tbu.armed = some a) {t : State}
    (ht : t = acceptedChange a.lane true t0 true s) :
    t.tbu.base = a.value + (s.tbu.base - t0) ∧ t.tbu.armed = none ∧ t.alerting 15 ∧
      ∀ i : Fin 4, (t.cst.rings[i]'i.isLt).markDue = true := by
  have hedge := timeSetEdge_lane (t0 := t0) ha true
  rw [if_pos rfl] at hedge
  have hc : t = scanPowerEdge a.lane true (decoderEdge a.lane t0 (applyTimeSet (a.value + (s.tbu.base - t0)) a.ticket
      { s with tbu := { s.tbu with armed := none } })) := by rw [ht, acceptedChange, if_pos rfl, hedge]
  generalize a.value + (s.tbu.base - t0) = v at hc ⊢
  have htbu : t.tbu = (applyTimeSet v a.ticket { s with tbu := { s.tbu with armed := none } }).tbu := by rw [hc]; simp
  have hcst : t.cst = (applyTimeSet v a.ticket { s with tbu := { s.tbu with armed := none } }).cst := by rw [hc]; simp
  refine ⟨?_, ?_, ?_, fun i => ?_⟩
  · rw [htbu, applyTimeSet_base]
  · rw [htbu]
    rfl
  · rw [hc]
    exact alerting_scanPowerEdge (alerting_decoderEdge (applyTimeSet_alerting v a.ticket _))
  · rw [hcst]
    exact congrArg Ring.markDue (mapAll_get _ s.cst.rings i)

end

theorem exec_laneAcceptance_due {i : Fin 16} {t0 : Stamp} (h : (s.stu.lanes[i]'i.isLt).acceptDue = some t0) :
    exec (.laneAcceptance i) s = .next (acceptEdge i t0 s) := by
  change Host.Outcome.next (laneAcceptance i s) = _
  rw [laneAcceptance, h]

theorem Lane.acceptDue_of_persisted {l : Lane} {t0 : Stamp} {n : Nat} (hm : l.mode = .sense)
    (hf : l.filter = .pending t0 n) (hn : l.rejectClocks ≤ n) : l.acceptDue = some t0 := by
  rw [Lane.acceptDue, hm, hf]
  exact if_pos hn

/-- Settles O7: mode by mode, and the armed set through every user of its lane. -/
theorem timeSetRequestsAndArmedApplication : Obligations.TimeSetRequestsAndArmedApplication := by
  refine ⟨?_, fun s q rest h => ⟨fun hm => ⟨fun hl => ?_, fun i hl => ⟨fun hoff => ?_, fun hsense => ?_⟩⟩,
    fun hm => ⟨fun ha => ?_, fun a ha => ?_⟩, fun hm => ⟨?_, ?_, ?_⟩⟩, fun s a t0 ha =>
      ⟨timeSetEdge_lane ha, fun i level hi => timeSetEdge_other ha hi level, fun n hm hf hn hacc => ?_⟩⟩
  · rintro s q rest h hm v u rfl rfl
    refine ⟨_, ?_, rfl⟩
    rw [exec_timeSetImmediate_head h (modeFits_own 0 0 2 q.payload hm), serveTimeSetImmediate_own hm, applyTimeSet_eq]
    cases ha : s.tbu.armed with
    | none => rw [withdrawArmed_none (s := taken rest s) ha]; rfl
    | some a => rw [withdrawArmed_some (s := taken rest s) ha]; rfl
  · rw [exec_timeSetArmed_head h (modeFits_own 0 1 2 q.payload hm), serveTimeSetArmed_lane hm hl]
    rfl
  · rw [exec_timeSetArmed_head h (modeFits_own 0 1 2 q.payload hm),
      serveTimeSetArmed_off (s := taken rest s) hm hl hoff]
    rfl
  · dsimp only
    rw [exec_timeSetArmed_head h (modeFits_own 0 1 2 q.payload hm),
      serveTimeSetArmed_sense (s := taken rest s) hm hl hsense]
    cases ha : s.tbu.armed with
    | none => rw [withdrawArmed_none (s := taken rest s) ha]; rfl
    | some a => rw [withdrawArmed_some (s := taken rest s) ha]; rfl
  · rw [exec_timeSetCancel_head h (modeFits_own 0 2 2 q.payload hm), serveTimeSetCancel_none (s := taken rest s) hm ha]
    rfl
  · rw [exec_timeSetCancel_head h (modeFits_own 0 2 2 q.payload hm), serveTimeSetCancel_some (s := taken rest s) hm ha,
      withdrawArmed_some (s := taken rest s) ha]
    rfl
  · rw [exec_timeSetImmediate_head h (modeFits_above 0 0 2 q.payload hm)]
    exact congrArg Host.Outcome.next (if_neg (by omega))
  · rw [exec_timeSetArmed_head h (modeFits_above 0 1 2 q.payload hm)]
    exact congrArg Host.Outcome.next (if_neg (by omega))
  · rw [exec_timeSetCancel_head h (modeFits_above 0 2 2 q.payload hm)]
    exact congrArg Host.Outcome.next (if_neg (by omega))
  · refine ⟨_, exec_laneAcceptance_due (Lane.acceptDue_of_persisted hm hf hn), ?_⟩
    rw [acceptEdge, hacc]
    split
    · exact acceptedChange_armed (s := produce _ (setLane a.lane _ s)) ha rfl
    · exact acceptedChange_armed (s := setLane a.lane _ s) ha rfl

end

end Sys2Proof.Machine
end

section
/-! Signal lanes (2.1, 2.2): departures and glitches, an accepted change and the users of its lane, LANE CONFIG. -/

namespace Sys2Proof.Machine

set_option Elab.async false

open Sys2Proof.Claims

/-! ## Departures (R20-R22) -/

theorem logicalLevel_eq (p : Polarity) (pin : Bool) :
    logicalLevel p pin = if p = .activeHigh then pin else !pin := by cases p <;> rfl

theorem exec_laneDeparture (i : Fin 16) (pin : Bool) (s : State) :
    exec (.laneDeparture i pin) s = .next (laneDeparture i (setLanePin i pin s)) := rfl

section
variable {s : State} {i : Fin 16}

/-- A level set on a lane's pin differs from the accepted one if its logical level does. -/
theorem laneDiffers_setLanePin {pin : Bool}
    (h : (if (s.stu.lanes[i]'i.isLt).polarity = .activeHigh then pin else !pin) ≠ (s.stu.lanes[i]'i.isLt).accepted) :
    (setLanePin i pin s).laneDiffers i = true := by
  rw [State.laneDiffers, setLanePin_stu, setLanePin_pins, put_get_self, logicalLevel_eq]
  exact bne_iff_ne.mpr h

theorem laneDeparture_due (h : s.departureDue i = true) :
    laneDeparture i s = setLane i { (s.stu.lanes[i]'i.isLt) with filter := .pending s.tbu.base 0 } s := if_pos h

theorem departureDue_setLanePin {pin : Bool} (hm : (s.stu.lanes[i]'i.isLt).mode = .sense)
    (hw : (s.stu.lanes[i]'i.isLt).width ≠ 0)
    (hf : (s.stu.lanes[i]'i.isLt).filter = .steady)
    (hp : (if (s.stu.lanes[i]'i.isLt).polarity = .activeHigh then pin else !pin) ≠ (s.stu.lanes[i]'i.isLt).accepted) :
    (setLanePin i pin s).departureDue i = true := by
  rw [State.departureDue, laneDiffers_setLanePin hp, setLanePin_stu, hm, hf, bne_iff_ne.mpr hw]
  rfl

/-- A PENDING lane counts the core clocks. -/
theorem iterate_coreClock_lane {t0 : Stamp} {n : Nat} (hf : (s.stu.lanes[i]'i.isLt).filter = .pending t0 n) (k : Nat) :
    ((coreClock^[k] s).stu.lanes[i]'i.isLt) = { (s.stu.lanes[i]'i.isLt) with filter := .pending t0 (n + k) } := by
  induction k with
  | zero => rw [Function.iterate_zero_apply, Nat.add_zero, ← hf]
  | succ k ih =>
    rw [Function.iterate_succ_apply', coreClock_lane, ih]
    rfl

theorem Lane.acceptDue_pending {l : Lane} {t0 : Stamp} {n : Nat} (hm : l.mode = .sense)
    (hf : l.filter = .pending t0 n) :
    l.acceptDue = some t0 ↔ l.rejectClocks ≤ n := by
  rw [Lane.acceptDue, hm, hf]
  dsimp only
  split
  · next h => exact iff_of_true rfl h
  · next h => exact iff_of_false (by simp) h

theorem Lane.rejectClocks_eq (l : Lane) :
    l.rejectClocks =
      match l.width with
      | 0 => 0
      | 1 => 125 * 1
      | 2 => 125 * 8
      | 3 => 125 * 64
      | 4 => 125 * 512 := by
  unfold Lane.rejectClocks
  generalize l.width = w
  fin_cases w <;> rfl

end

/-- Settles O9: a departure and a glitch by what makes each due, and a PENDING lane by its clock count. -/
theorem departuresBecomeGlitchesOrComeDue : Obligations.DeparturesBecomeGlitchesOrComeDue := by
  refine ⟨?_, fun s i t0 n k hm hf => ?_⟩
  · rintro s i pin l rfl hm
    refine ⟨fun hw hf hp => ?_, ?_⟩
    · rw [exec_laneDeparture, laneDeparture_due (departureDue_setLanePin hm hw hf hp)]
      rfl
    · rintro t0 n hf h1 hn hp u rfl
      rw [exec_glitch, laneGlitch_due (glitchDue_of_return hm hf h1 hn (by rw [logicalLevel_eq, hp]))]
      rfl
  · have hlane := iterate_coreClock_lane hf k
    refine ⟨hlane, ?_, Lane.rejectClocks_eq _⟩
    rw [hlane]
    exact Lane.acceptDue_pending hm rfl

/-! ## The users of a lane (R21, R23, R24) -/

section
variable {s t : State} {i : Fin 16}

theorem Decoder.names_iff (d : Decoder) (i : Fin 16) :
    d.names i = true ↔ d.enabled = true ∧ (i = d.a ∨ i = d.b ∨ i = d.c) := by
  simp [Decoder.names, or_assoc]

theorem decoderEdge_other (h : ¬s.stu.decoder.names i = true) (t0 : Stamp) : decoderEdge i t0 s = s := if_neg h

theorem timeSetEdge_unarmed {level : Bool} {t0 : Stamp} (h : ∀ a, s.tbu.armed = some a → a.lane ≠ i) :
    timeSetEdge i level t0 s = s := by
  cases ha : s.tbu.armed with
  | none => rw [timeSetEdge, ha]
  | some a => exact timeSetEdge_other ha (h a ha).symm level

theorem decoded_of_stu (h : t.stu = s.stu) : t.decoded = s.decoded := by
  simp only [State.decoded, State.code, State.laneLevel, h]

/-- What the decoder does depends on the lanes and the decoder alone. -/
theorem expireEpisode_stu (h : t.stu = s.stu) : (expireEpisode t).stu = (expireEpisode s).stu := by
  unfold expireEpisode
  rw [h, decoded_of_stu h]
  dsimp only
  (repeat' split) <;> simp [setDecoder, h]

theorem decoderEdge_stu (h : t.stu = s.stu) (t0 : Stamp) : (decoderEdge i t0 t).stu = (decoderEdge i t0 s).stu := by
  unfold decoderEdge
  rw [h]
  dsimp only
  (repeat' split)
  · exact expireEpisode_stu (by rw [setDecoder, setDecoder, h])
  · rw [setDecoder, setDecoder, h]
  · exact h

theorem concludeScan_sce {o : ScanOrigin} {st : Status} {l : List Bool} (h : t.sce = s.sce) :
    (concludeScan o st l t).sce = (concludeScan o st l s).sce := by
  cases o with
  | station q => exact h
  | slot n => exact congrArg (fun u : Sce => u.slotResult n st l) h

theorem flush_sce (h : t.sce = s.sce) : (flush t).sce = (flush s).sce := by
  have hkeep (u : State) :
    (forEach u.sce.queue (fun q t => respond q.ticket .aborted (resultBytes []) t) u).sce = u.sce :=
    forEach_same State.sce _ _ _ fun _ _ => rfl
  unfold flush
  dsimp only
  rw [hkeep, hkeep, h]

/-- What the engine does at an edge of its power lane depends on the engine alone. -/
theorem scanPowerEdge_sce (h : t.sce = s.sce) (level : Bool) :
    (scanPowerEdge i level t).sce = (scanPowerEdge i level s).sce := by
  unfold scanPowerEdge scanFault
  rw [h]
  dsimp only
  (repeat' split)
  · exact flush_sce (concludeScan_sce (by simp))
  · exact h
  · rfl
  · exact h

theorem timeSetEdge_stu_if (byEdge level : Bool) (t0 : Stamp) :
    (if byEdge = true then timeSetEdge i level t0 s else s).stu = s.stu := by
  split <;> simp

theorem timeSetEdge_sce_if (byEdge level : Bool) (t0 : Stamp) :
    (if byEdge = true then timeSetEdge i level t0 s else s).sce = s.sce := by
  split <;> simp

/-- An accepted change: each user's part is what the user alone would leave. -/
theorem acceptedChange_parts (level : Bool) (t0 : Stamp) (byEdge : Bool) :
    (acceptedChange i level t0 byEdge s).sce = (scanPowerEdge i level s).sce ∧
      (acceptedChange i level t0 byEdge s).stu = (decoderEdge i t0 s).stu ∧
      (acceptedChange i level t0 byEdge s).tbu = if byEdge = true then (timeSetEdge i level t0 s).tbu else s.tbu := by
  unfold acceptedChange
  refine ⟨scanPowerEdge_sce (by simpa using timeSetEdge_sce_if byEdge level t0) level, ?_, ?_⟩
  · simpa using decoderEdge_stu (timeSetEdge_stu_if byEdge level t0) t0
  · simp [apply_ite State.tbu]

/-- A lane nothing uses: an accepted change of it changes nothing more. -/
theorem acceptedChange_unused {level : Bool} {t0 : Stamp} {byEdge : Bool} (hd : ¬s.stu.decoder.names i = true)
    (hp : s.sce.powerLane ≠ some i) (ha : ∀ a, s.tbu.armed = some a → a.lane ≠ i) :
    acceptedChange i level t0 byEdge s = s := by
  rw [acceptedChange, timeSetEdge_unarmed ha, ite_self, decoderEdge_other hd]
  exact scanPowerEdge_other i level (.inl hp)

/-! ## Accepted changes (R21, R23) -/

theorem edgeRecord_eq (i : Fin 16) (accepted : Bool) (t0 : Stamp) :
    edgeRecord i (!accepted) t0 =
      newRecord (srcLane i) (if accepted then .edgeFall else .edgeRise) t0 (edgeKey i (!accepted)) := by
  cases accepted <;> rfl

theorem acceptEdge_eq {i : Fin 16} {s : State} {l : Lane} (hl : (s.stu.lanes[i]'i.isLt) = l) (t0 : Stamp) {u : State}
    (hu : u = setLane i { l with accepted := !l.accepted, filter := .steady, lastEdge := some t0 } s) :
    acceptEdge i t0 s =
      acceptedChange i (!l.accepted) t0 true
        (if l.edges.selects (!l.accepted) then
          produce (newRecord (srcLane i) (if l.accepted then .edgeFall else .edgeRise) t0 (edgeKey i (!l.accepted))) u
        else u) := by
  subst hl hu
  rw [← edgeRecord_eq]
  rfl

theorem exec_bypass_due {pin : Bool} (hm : (s.stu.lanes[i]'i.isLt).mode = .sense)
    (hw : (s.stu.lanes[i]'i.isLt).width = 0)
    (hp : (if (s.stu.lanes[i]'i.isLt).polarity = .activeHigh then pin else !pin) ≠ (s.stu.lanes[i]'i.isLt).accepted) :
    exec (.bypassAcceptedChange i pin) s = .next (acceptEdge i s.tbu.base (setLanePin i pin s)) := by
  have hdue : (setLanePin i pin s).bypassDue i = true := by
    rw [State.bypassDue, laneDiffers_setLanePin hp, setLanePin_stu, hm, hw]
    rfl
  exact congrArg Host.Outcome.next (if_pos hdue)

end

/-- Settles O10: the rows by what makes them due, and each user of the lane by what it reads of the state. -/
theorem acceptedLaneChange : Obligations.AcceptedLaneChange := by
  rintro s i l rfl hm
  refine ⟨?_, ?_, ?_, fun level t0 byEdge hd hp ha => acceptedChange_unused ?_ hp ha⟩
  · intro t0 n hf hn u hu
    rw [exec_laneAcceptance_due (Lane.acceptDue_of_persisted hm hf hn), acceptEdge_eq rfl t0 hu]
  · intro pin hw hp u hu
    rw [exec_bypass_due hm hw hp, acceptEdge_eq rfl s.tbu.base hu]
    rfl
  · rintro level t0 byEdge t rfl
    exact ⟨rfl, acceptedChange_parts level t0 byEdge⟩
  · rw [Decoder.names_iff]
    rcases hd with hd | ⟨ha, hb, hc⟩
    · simp [hd]
    · simp [ha, hb, hc]

/-! ## LANE CONFIG (R25, R26) -/

section
variable {s : State} {i : Fin 16} {p : List Byte}

theorem laneSettingsAt_none (h : 16 ≤ byteAt p 0 ∨ 5 ≤ byteAt p 3 ∨ laneSettingsAt p = none) :
    laneSettingsAt p = none := by
  rcases h with h | h | h
  · simp [laneSettingsAt, toFin_none h]
  · simp [laneSettingsAt, toFin_none h]
  · exact h

theorem laneInUse_iff :
    s.laneInUse i = true ↔
      ((s.stu.decoder.enabled = true ∧ (i = s.stu.decoder.a ∨ i = s.stu.decoder.b ∨ i = s.stu.decoder.c)) ∨
        s.sce.powerLane = some i ∨ ∃ a, s.tbu.armed = some a ∧ a.lane = i) := by
  simp [State.laneInUse, State.laneUses, Decoder.names_iff, Option.any_eq_true]

/-- The filter and the accepted level LANE CONFIG leaves, by the table of R25. -/
theorem Lane.configure_eq (l : Lane) (c : LaneSettings) (pin : Bool) {f : Filter} {a : Bool}
    (h : (f, a) =
      (match l.mode, c.mode with
        | .off, .off => (l.filter, l.accepted)
        | .off, .sense => (.steady, logicalLevel c.polarity pin)
        | .sense, .off => (.steady, false)
        | .sense, .sense =>
          if c.polarity = l.polarity ∧ c.width = l.width then (l.filter, l.accepted)
          else (.steady, logicalLevel c.polarity pin))) :
    l.configure c pin =
      { mode := c.mode, polarity := c.polarity, width := c.width, edges := c.edges, glitches := c.glitches,
        accepted := a
        filter := f, glitchCount := l.glitchCount, lastEdge := l.lastEdge } := by
  unfold Lane.configure
  cases hl : l.mode <;> cases hc : c.mode <;> simp only [hl, hc] at h ⊢
  case sense.sense =>
    split at h
    · next heq => rw [if_pos heq]; cases h; rfl
    · next hne => rw [if_neg hne]; cases h; rfl
  all_goals cases h; rfl

section
variable {q : Request} {c : LaneSettings}

theorem serveLaneConfig_range (h : laneSettingsAt q.payload = none) : serveLaneConfig q s = refuse q .range s := by
  rw [serveLaneConfig, h]

theorem serveLaneConfig_used (h : laneSettingsAt q.payload = some (i, c)) (hu : s.laneInUse i = true)
    (hl : (s.stu.lanes[i]'i.isLt).mode = .sense) (hc : c.mode = .off) : serveLaneConfig q s = refuse q .state s := by
  rw [serveLaneConfig, h]
  exact if_pos ⟨hu, hl, hc⟩

theorem serveLaneConfig_stored (h : laneSettingsAt q.payload = some (i, c))
    (hu : ¬(s.laneInUse i = true ∧ (s.stu.lanes[i]'i.isLt).mode = .sense ∧ c.mode = .off)) {l : Lane}
    (hl : (s.stu.lanes[i]'i.isLt).configure c (s.pins.lanes[i]'i.isLt) = l) :
    serveLaneConfig q s =
      done q []
        (if (s.stu.lanes[i]'i.isLt).mode = .sense ∧ c.mode = .sense ∧ l.accepted ≠ (s.stu.lanes[i]'i.isLt).accepted then
          acceptedChange i l.accepted s.now false (setLane i l s)
        else setLane i l s) := by
  subst hl
  rw [serveLaneConfig, h]
  exact if_neg hu

end

end

/-- Settles O11: by the settings the payload gives, the lane's use, and the table of R25. -/
theorem laneConfigTreatsTheFilter : Obligations.LaneConfigTreatsTheFilter := by
  intro s q rest h
  rw [exec_head (c := .laneConfig) rfl h]
  refine ⟨fun hbad => ?_, ?_⟩
  · rw [serveLaneConfig_range (laneSettingsAt_none hbad)]
    rfl
  · rintro i c l used hset rfl rfl
    refine ⟨fun hu hl hc => ?_, fun hu f a u hfa hstored => ?_⟩
    · rw [serveLaneConfig_used (s := taken rest s) hset (laneInUse_iff.mpr hu) hl hc]
      rfl
    · subst hstored
      have hfree : ¬((taken rest s).laneInUse i = true ∧ (s.stu.lanes[i]'i.isLt).mode = .sense ∧ c.mode = .off) :=
        fun hn =>
        hu ⟨laneInUse_iff.mp hn.1, hn.2⟩
      rw [serveLaneConfig_stored (s := taken rest s) hset hfree (Lane.configure_eq _ c _ hfa)]
      rfl

end Sys2Proof.Machine
end

section
/-! The power-state decoder and the clock presence check (2.3, 2.4): DECODE CONFIG, the settle episode, CLOCK CHECK. -/

namespace Sys2Proof.Machine

set_option Elab.async false

open Sys2Proof.Claims

/-! ## The present code (R32) -/

theorem bit_mod (b : Bool) : bit b % 2 = bit b := by cases b <;> rfl

theorem State.code_val (s : State) {d : Decoder} (h : s.stu.decoder = d) :
    s.code.val = 4 * bit (s.stu.lanes[d.c]'d.c.isLt).accepted + 2 * bit (s.stu.lanes[d.b]'d.b.isLt).accepted + bit
      (s.stu.lanes[d.a]'d.a.isLt).accepted := by
  subst h
  simp only [State.code, State.laneLevel, bit_mod]
  omega

/-! ## DECODE CONFIG (R30, R31, R35) -/

theorem yesNoAt_zero {p : List Byte} {i : Nat} (h : byteAt p i = 0) : yesNoAt p i = some true := by
  rw [yesNoAt, h]
  rfl

theorem yesNoAt_one {p : List Byte} {i : Nat} (h : byteAt p i = 1) : yesNoAt p i = some false := by
  rw [yesNoAt, h]
  rfl

theorem yesNoAt_none {p : List Byte} {i : Nat} (h : 2 ≤ byteAt p i) : yesNoAt p i = none := by
  unfold yesNoAt
  split <;> [omega; omega; rfl]

section
variable {p : List Byte}

theorem decodeSettingsAt_none
    (h : 16 ≤ byteAt p 0 ∨ 16 ≤ byteAt p 1 ∨ 16 ≤ byteAt p 2 ∨ 1023 < numAt p 3 2 ∨ 2 ≤ byteAt p 5) :
    decodeSettingsAt p = none := by
  unfold decodeSettingsAt
  rcases h with h | h | h | h | h
  · simp [toFin_none h]
  · simp [toFin_none h]
  · simp [toFin_none h]
  · simp [h]
  · simp [yesNoAt_none h]

theorem decodeSettingsAt_some {a b c : Fin 16} {en : Bool} (ha : byteAt p 0 = a.val) (hb : byteAt p 1 = b.val)
    (hc : byteAt p 2 = c.val) (hs : numAt p 3 2 ≤ 1023) (he : yesNoAt p 5 = some en) :
    decodeSettingsAt p = some { a, b, c, settle := numAt p 3 2, enable := en } := by
  rw [decodeSettingsAt, toFin_of_eq ha, toFin_of_eq hb, toFin_of_eq hc, he]
  simp [Nat.not_lt.mpr hs]

end

section
variable {s : State} {q : Request} {x : DecodeSettings}

theorem serveDecodeConfig_range (h : decodeSettingsAt q.payload = none) :
    serveDecodeConfig q s = refuse q .range s := by
  rw [serveDecodeConfig, h]

/-- An enabled decoder can only be disabled. -/
theorem serveDecodeConfig_enabled (h : decodeSettingsAt q.payload = some x) (he : s.stu.decoder.enabled = true) :
    serveDecodeConfig q s = if x.enable then refuse q .state s else done q [] (disableDecoder x s) := by
  rw [serveDecodeConfig, h]
  exact if_pos he

theorem serveDecodeConfig_stored (h : decodeSettingsAt q.payload = some x) (he : s.stu.decoder.enabled = false)
    (hx : x.enable = false) : serveDecodeConfig q s = done q [] (setDecoder (s.stu.decoder.store x) s) := by
  rw [serveDecodeConfig, h]
  simp [he, hx]

/-- A decoder is enabled where all three of its lanes are in use. -/
theorem serveDecodeConfig_enable (h : decodeSettingsAt q.payload = some x) (he : s.stu.decoder.enabled = false)
    (hx : x.enable = true) :
    serveDecodeConfig q s =
      if (s.stu.lanes[x.a]'x.a.isLt).mode = .sense ∧ (s.stu.lanes[x.b]'x.b.isLt).mode = .sense ∧
        (s.stu.lanes[x.c]'x.c.isLt).mode = .sense then
        done q [] (enableDecoder x s)
      else refuse q .state s := by
  rw [serveDecodeConfig, h]
  simp [he, hx]

/-- Enabling decodes the present code of the named lanes. -/
theorem enableDecoder_eq {d : Decoder} {code : Fin 8} (hd : d = { s.stu.decoder.store x with enabled := true })
    (hcode : code.val =
      4 * bit (s.stu.lanes[d.c]'d.c.isLt).accepted + 2 * bit (s.stu.lanes[d.b]'d.b.isLt).accepted + bit
        (s.stu.lanes[d.a]'d.a.isLt).accepted) :
    enableDecoder x s =
      produce
        { newRecord 16 .state s.tbu.base (stateKey none (some (d.table[code]'code.isLt).state) code) with flags :=
          { initial := true } }
        (setDecoder { d with current := some (d.table[code]'code.isLt).state, episode := none } s) := by
  obtain rfl : (setDecoder d s).code = code := Fin.ext ((State.code_val (setDecoder d s) rfl).trans hcode.symm)
  subst hd
  rfl

end

/-- Settles O13: by what the payload names, the decoder's state, and the enable carried. -/
theorem decodeConfigEnablesAndDisables : Obligations.DecodeConfigEnablesAndDisables := by
  intro s q rest h
  rw [exec_head (c := .decodeConfig) rfl h]
  refine ⟨fun hbad => ?_, ?_⟩
  · rw [serveDecodeConfig_range (decodeSettingsAt_none hbad)]
    rfl
  · rintro a b c d ha hb hc hs rfl
    have hset {en : Bool} (he : yesNoAt q.payload 5 = some en) := decodeSettingsAt_some ha hb hc hs he
    refine ⟨fun h1 he => ?_, fun h0 he => ?_, fun h1 he => ?_, fun h0 he => ⟨fun hoff => ?_, fun hma hmb hmc => ?_⟩⟩
    · rw [serveDecodeConfig_stored (s := taken rest s) (hset (yesNoAt_one h1)) he rfl]
      rfl
    · rw [serveDecodeConfig_enabled (s := taken rest s) (hset (yesNoAt_zero h0)) he]
      rfl
    · rw [serveDecodeConfig_enabled (s := taken rest s) (hset (yesNoAt_one h1)) he]
      rfl
    · rw [serveDecodeConfig_enable (s := taken rest s) (hset (yesNoAt_zero h0)) he rfl, if_neg]
      · rfl
      · rintro ⟨hma, hmb, hmc⟩
        rcases hoff with hoff | hoff | hoff
        · exact absurd (hma.symm.trans hoff) (by decide)
        · exact absurd (hmb.symm.trans hoff) (by decide)
        · exact absurd (hmc.symm.trans hoff) (by decide)
    · rintro code x hcode rfl
      rw [serveDecodeConfig_enable (s := taken rest s) (hset (yesNoAt_zero h0)) he rfl, if_pos ⟨hma, hmb, hmc⟩,
        enableDecoder_eq (s := taken rest s) rfl hcode]
      rfl

/-! ## The settle episode (R32, R33) -/

section
variable {s : State} {d : Decoder}

/-- The decoder with its episode restarted: the first stamp of the episode kept. -/
def Decoder.restarted (d : Decoder) (t0 : Stamp) : Decoder :=
  { d with episode := some { stamp := (d.episode.map (·.stamp)).getD t0, count := 0 } }

theorem Decoder.restarted_eq (d : Decoder) (t0 : Stamp) :
    d.restarted t0 =
      { d with
        episode := some
          { stamp := match d.episode with
              | some e => e.stamp
              | none => t0
            count := 0 } } := by
  unfold Decoder.restarted
  cases d.episode <;> rfl

theorem decoderEdge_named {i : Fin 16} {t0 : Stamp} (h : s.stu.decoder.names i = true) :
    decoderEdge i t0 s =
      if s.stu.decoder.settle = 0 then expireEpisode (setDecoder (s.stu.decoder.restarted t0) s)
      else setDecoder (s.stu.decoder.restarted t0) s := if_pos h

theorem exec_episodeExpiry_due {e : Episode} (he : s.stu.decoder.episode = some e)
    (hc : 125 * s.stu.decoder.settle ≤ e.count) : exec .episodeExpiry s = .next (expireEpisode s) := by
  refine congrArg Host.Outcome.next (if_pos ?_)
  rw [Decoder.expiryDue, he]
  exact decide_eq_true hc

theorem expireEpisode_running {e : Episode} {u : State} (he : s.stu.decoder.episode = some e)
    (hu : u = setDecoder (s.stu.decoder.settled s.decoded.state) s) :
    expireEpisode s =
      if s.stu.decoder.current = some s.decoded.state then u
      else if s.decoded.forbids s.stu.decoder.current then
        setAlert .seqViolation
          (produce (stateRecord .seqViolation s.stu.decoder.current s.decoded.state s.code e.stamp)
            (produce (stateRecord .state s.stu.decoder.current s.decoded.state s.code e.stamp) u))
      else produce (stateRecord .state s.stu.decoder.current s.decoded.state s.code e.stamp) u := by
  subst hu
  rw [expireEpisode, he]

end

/-- Settles O15: an edge by whether the decoder names its lane, an expiry by what the present code's entry allows. -/
theorem settleEpisodeDecodesAtExpiry : Obligations.SettleEpisodeDecodesAtExpiry := by
  rintro s d rfl
  refine ⟨fun i t0 h => decoderEdge_other ?_ t0, fun i t0 u hen hi hu => ?_,
    fun e x u he hc hx => ⟨s.code_val rfl, fun hu => ?_⟩⟩
  · rw [Decoder.names_iff]
    rcases h with h | ⟨ha, hb, hc⟩
    · simp [h]
    · simp [ha, hb, hc]
  · rw [decoderEdge_named (s.stu.decoder.names_iff i |>.mpr ⟨hen, hi⟩)]
    obtain rfl : u = setDecoder (s.stu.decoder.restarted t0) s :=
      hu.trans (congrArg (setDecoder · s) (Decoder.restarted_eq _ _).symm)
    refine ⟨fun h1 => if_neg (by omega), fun h0 => ?_⟩
    rw [if_pos h0]
    refine exec_episodeExpiry_due (s := setDecoder (s.stu.decoder.restarted t0) s) rfl ?_
    change 125 * s.stu.decoder.settle ≤ 0
    rw [h0]
  · obtain rfl : x = s.decoded.state := hx
    rw [exec_episodeExpiry_due he hc, expireEpisode_running he hu]
    refine ⟨fun hcur => ?_, fun p hcur hne hall => ?_, fun p hcur hne hall => ?_⟩
    · rw [if_pos hcur]
    · have hnot : s.stu.decoder.current ≠ some s.decoded.state := fun h => hne (Option.some.inj (hcur.symm.trans h))
      rw [if_neg hnot, hcur, if_neg (by rw [DecodeEntry.forbids, State.decoded, hall]; decide)]
      rfl
    · have hnot : s.stu.decoder.current ≠ some s.decoded.state := fun h => hne (Option.some.inj (hcur.symm.trans h))
      rw [if_neg hnot, hcur, if_pos (by rw [DecodeEntry.forbids, State.decoded, hall]; rfl)]
      rfl

/-! ## The clock presence check (R39, R40) -/

theorem ClockCheck.over_iff (c : ClockCheck) :
    c.over = true ↔ c.running ≠ none ∧ (c.core = 255 ∨ c.bref = 255 ∨ c.rclk = 255) := by
  simp [ClockCheck.over, Option.isSome_iff_ne_none, or_assoc]

theorem ClockCheck.count_still {c : ClockCheck} (h : c.running = none ∨ (c.core = 255 ∨ c.bref = 255 ∨ c.rclk = 255))
    (k b r : Nat) : c.count k b r = c := by
  by_cases hn : c.running = none
  · exact c.count_idle k b r hn
  · exact c.count_over k b r (c.over_iff.mpr ⟨hn, h.resolve_left hn⟩)

theorem ClockCheck.count_open {c : ClockCheck} (h : c.running ≠ none)
    (hf : ¬(c.core = 255 ∨ c.bref = 255 ∨ c.rclk = 255))
    (k b r : Nat) :
    c.count k b r =
      { c with core := min 255 (c.core + k), bref := min 255 (c.bref + b), rclk := min 255 (c.rclk + r) } :=
  c.count_running k b r (Option.isSome_iff_ne_none.mpr h) (Bool.eq_false_iff.mpr fun ho => hf (c.over_iff.mp ho).2)

/-- A check counted k times, no counter reaching 255 before the last. -/
theorem ClockCheck.iterate_count {c : ClockCheck} {b r : Nat} (hr : c.running ≠ none) :
    ∀ k, 1 ≤ k → c.core + k ≤ 255 → (∀ j < k, c.bref + j * b < 255 ∧ c.rclk + j * r < 255) →
      (fun x => x.count 1 b r)^[k] c =
        { c with core := c.core + k, bref := min 255 (c.bref + k * b), rclk := min 255 (c.rclk + k * r) } := by
  intro k hk
  induction k, hk using Nat.le_induction with
  | base =>
    intro hcore hopen
    obtain ⟨hb, hc⟩ := hopen 0 Nat.one_pos
    refine (count_open hr (by omega) 1 b r).trans ?_
    rw [Nat.min_eq_right hcore, Nat.one_mul, Nat.one_mul]
  | succ k hk ih =>
    intro hcore hopen
    obtain ⟨hb, hc⟩ := hopen k k.lt_succ_self
    rw [Function.iterate_succ_apply', ih (by omega) fun j hj => hopen j (hj.trans k.lt_succ_self),
      Nat.min_eq_right hb.le, Nat.min_eq_right hc.le]
    refine (count_open (c := { c with core := c.core + k, bref := c.bref + k * b, rclk := c.rclk + k * r }) hr ?_
      1 b r).trans ?_
    · dsimp only
      omega
    · dsimp only
      rw [Nat.min_eq_right (by omega), Nat.succ_mul, Nat.succ_mul, Nat.add_assoc, Nat.add_assoc, Nat.add_assoc]

section
variable {s : State}

theorem iterate_coreClock_check (k : Nat) :
    (coreClock^[k] s).pins = s.pins ∧
      (coreClock^[k] s).stu.check =
        (fun x => x.count 1 s.pins.brefEdges.toNat s.pins.rclkEdges.toNat)^[k] s.stu.check := by
  induction k with
  | zero => exact ⟨rfl, rfl⟩
  | succ k ih =>
    obtain ⟨hpins, hcheck⟩ := ih
    rw [Function.iterate_succ_apply', Function.iterate_succ_apply', ← hcheck]
    refine ⟨hpins, ?_⟩
    rw [← hpins]
    rfl

theorem exec_clockCheckEnd (x y : BitVec 8) :
    exec (.clockCheckEnd x y) s = .next (clockCheckEnd (setEdgeRates x y s)) := rfl

theorem clockCheckEnd_running {t : Ticket} (h : s.stu.check.running = some t) :
    clockCheckEnd s =
      if s.stu.check.over then
        respond t .done (num 1 s.stu.check.core ++ num 1 s.stu.check.bref ++ num 1 s.stu.check.rclk)
          (produce
            (newRecord srcClock .clockResult s.now (clockKey s.stu.check.core s.stu.check.bref s.stu.check.rclk))
            (setCheck { s.stu.check with running := none } s))
      else s := by
  rw [clockCheckEnd, h]

theorem clockCheckEnd_still (h : s.stu.check.running = none ∨ s.stu.check.over = false) : clockCheckEnd s = s := by
  cases hr : s.stu.check.running with
  | none => rw [clockCheckEnd, hr]
  | some t =>
    rw [clockCheckEnd_running hr, h.resolve_left (by rw [hr]; exact Option.some_ne_none t)]
    rfl

theorem checkDue_of_over (h : s.stu.check.over = true) :
    Instr.clockCheckEnd s.pins.brefEdges s.pins.rclkEdges ∈ dueEvents s := by
  have hdue : Instr.clockCheckEnd s.pins.brefEdges s.pins.rclkEdges ∈ checkDue s := by
    rw [checkDue, h]
    exact List.mem_singleton_self _
  simp only [dueEvents, List.mem_append]
  simp only [hdue, true_or, or_true]

theorem serveClockCheck_idle {q : Request} (h : s.stu.check.running = none) :
    serveClockCheck q s = setCheck { running := some q.ticket, core := 0, bref := 0, rclk := 0 } s := by
  rw [serveClockCheck, h]

theorem serveClockCheck_running {q : Request} {t : Ticket} (h : s.stu.check.running = some t) :
    serveClockCheck q s =
      setCheck { running := some q.ticket, core := 0, bref := 0, rclk := 0 } (respond t .superseded [] s) := by
  rw [serveClockCheck, h]

end

/-- Settles O16: the count by whether a counter is full, the requests and the end by the check that runs. -/
theorem clockCheckRunsAndEnds : Obligations.ClockCheckRunsAndEnds := by
  refine ⟨?_, fun s => ⟨fun q rest h => ?_, ?_, ?_⟩⟩
  · rintro c full rfl k b r
    exact ⟨fun h => ClockCheck.count_still h k b r, fun hr hf => ClockCheck.count_open hr hf k b r⟩
  · rw [exec_head (c := .clockCheck) rfl h]
    cases hr : s.stu.check.running with
    | none => rw [serveClockCheck_idle (s := taken rest s) hr]; rfl
    | some t => rw [serveClockCheck_running (s := taken rest s) hr]; rfl
  · rintro x y u rfl full rfl
    refine ⟨fun h => ?_, fun t hr hf => ?_⟩
    · rw [exec_clockCheckEnd, clockCheckEnd_still]
      · rfl
      · exact h.imp_right fun hf => Bool.eq_false_iff.mpr fun ho => hf (ClockCheck.over_iff _ |>.mp ho).2
    · have hover : s.stu.check.over = true := (ClockCheck.over_iff _).mpr ⟨by rw [hr]; exact Option.some_ne_none t, hf⟩
      refine ⟨?_, checkDue_of_over hover⟩
      rw [exec_clockCheckEnd, clockCheckEnd_running (s := setEdgeRates x y s) hr]
      exact congrArg Host.Outcome.next (if_pos hover)
  · rintro t c b r k rfl hr rfl rfl hk hcore hopen
    rw [(iterate_coreClock_check k).2,
      ClockCheck.iterate_count (by rw [hr]; exact Option.some_ne_none t) k hk hcore hopen, hr]

end Sys2Proof.Machine
end

section
/-! The rail monitor (chapter 3): the steps of a conversion, the window, blanks, RAIL CONFIG and TRIP CLEAR. -/

namespace Sys2Proof.Machine

set_option Elab.async false

open Sys2Proof.Claims

/-! ## The steps of a conversion (R44-R49) -/

section
variable {s : State} {c : Fin 8} {k : Conversion} {x : Channel} {jump : Bool}

theorem Channel.trips_eq_false (h : x.trip = 0 ∨ k.value < x.trip ∨ x.tripped = true) : x.trips k.value = false := by
  refine Bool.eq_false_iff.mpr fun ht => ?_
  obtain ⟨hpos, hle, hclear⟩ := (x.trips_iff k.value).mp ht
  rcases h with h | h | h
  · omega
  · omega
  · rw [h] at hclear
    cases hclear

theorem sampleStage_off (hx : x = (s.rmu.channels[c]'c.isLt)) (h : x.decim = 0) : sampleStage c k s = s := by
  rw [sampleStage_eq c k s x hx, if_pos h]

theorem sampleStage_counts (hx : x = (s.rmu.channels[c]'c.isLt)) (h : x.samples + 1 < x.decim) :
    sampleStage c k s = setChannel c { x with samples := x.samples + 1 } s := by
  rw [sampleStage_eq c k s x hx, if_neg (by omega), if_pos h]

theorem sampleStage_records (hx : x = (s.rmu.channels[c]'c.isLt)) (h0 : 1 ≤ x.decim) (h : x.decim ≤ x.samples + 1) :
    sampleStage c k s =
      produce (railRecord c .railSample x.window false k.value k.saturated false s.now)
        (setChannel c { x with samples := 0 } s) := by
  rw [sampleStage_eq c k s x hx, if_neg (by omega), if_neg (by omega)]

/-! ## The converter's choice (R42) -/

theorem Rmu.startNext_none {u : Rmu} (h : ∀ c : Fin 8, (u.channels[c]'c.isLt).enabled = false) :
    u.startNext = { u with converting := none } := by
  have hnone : (u.order.find? fun c => (u.channels[c]'c.isLt).enabled) = none :=
    List.find?_eq_none.mpr fun c _ => by rw [h c]; decide
  rw [Rmu.startNext, hnone]

theorem Rmu.startNext_some {u : Rmu} {i : Nat} (hi : i < 8) (hc : c.val = (u.position.val + 1 + i) % 8)
    (he : (u.channels[c]'c.isLt).enabled = true)
    (hskip : ∀ j < i, ∀ d : Fin 8, d.val = (u.position.val + 1 + j) % 8 → (u.channels[d]'d.isLt).enabled = false) :
    u.startNext = { u with converting := some { channel := c, elapsed := 0 }, position := c } := by
  have hfind : (u.order.find? fun c => (u.channels[c]'c.isLt).enabled) = some c := by
    refine List.find?_eq_some_iff_getElem.mpr ⟨he, i, by simpa [Rmu.order] using hi, ?_, fun j hj => ?_⟩
    · simp only [Rmu.order, List.getElem_map, List.getElem_range]
      exact Fin.ext hc.symm
    · rw [Bool.not_eq_true']
      refine hskip j hj _ ?_
      simp only [Rmu.order, List.getElem_map, List.getElem_range]
  rw [Rmu.startNext, hfind]

/-! ## The end of a blank (R53, R55) -/

theorem Rmu.blankOver_iff (u : Rmu) (c : Fin 8) :
    u.blankOver c = true ↔ (u.channels[c]'c.isLt).blanked = true ∧ (u.channels[c]'c.isLt).blankHold = 0 ∧
      ∀ d : Fin 8, ¬((u.lines[d]'d.isLt).active = true ∧ (u.lines[d]'d.isLt).mask.getLsbD c.val = true) := by
  have hnamed : u.namedByLine c = true ↔ ∃ d : Fin 8, (u.lines[d]'d.isLt).active = true ∧
    (u.lines[d]'d.isLt).mask.getLsbD c.val = true := by
    simp only [Rmu.namedByLine, List.any_eq_true, Bool.and_eq_true]
    constructor
    · rintro ⟨x, hx, h⟩
      obtain ⟨d, hd, rfl⟩ := List.mem_iff_getElem.mp hx
      exact ⟨⟨d, by simpa using hd⟩, by simpa using h⟩
    · rintro ⟨d, h⟩
      exact ⟨(u.lines[d]'d.isLt), by simp, h⟩
  rw [Rmu.blankOver, Bool.and_eq_true, Bool.and_eq_true, Bool.not_eq_true', ← Bool.not_eq_true, hnamed, beq_iff_eq,
    not_exists]
  exact ⟨fun ⟨⟨hb, hn⟩, hh⟩ => ⟨hb, hh, hn⟩, fun ⟨hb, hh, hn⟩ => ⟨⟨hb, hn⟩, hh⟩⟩

theorem endBlank_over (h : s.rmu.blankOver c = true) (hx : x = (s.rmu.channels[c]'c.isLt)) :
    endBlank c s =
      match releasedMove x.blankLatch x.window with
      | none => setChannel c { x with blanked := false } s
      | some (kind, jump) =>
        produce
          (railRecord c kind x.window jump ((x.last.map (·.value)).getD 0) (x.last.any (·.saturated)) true s.tbu.base)
          (setChannel c { x with blanked := false } s) := by
  subst hx
  rw [endBlank, if_pos h]
  dsimp only
  cases releasedMove (s.rmu.channels[c]'c.isLt).blankLatch (s.rmu.channels[c]'c.isLt).window <;> rfl

/-- The protection request goes out with the trip of a protected channel. -/
theorem protectStage_eq (v : Nat) (u : State) :
    protectStage (x.protect && x.trips v) u =
      if x.protect = true ∧ 1 ≤ x.trip ∧ x.trip ≤ v ∧ x.tripped = false then enterSafe u else u :=
  if_congr (by rw [Bool.and_eq_true, x.trips_iff]; rfl) rfl rfl

/-- The end of a conversion that has taken its clocks. -/
theorem exec_conversionEnd_due {e : Nat} (hk : s.rmu.converting = some { channel := c, elapsed := e }) (he : 250 ≤ e)
    (code : BitVec 12) {t : State}
    (ht : t = conversionResult c code { s with pins := { s.pins with rails := put s.pins.rails c code } }) :
    exec (.conversionEnd code) s = .next { t with rmu := t.rmu.startNext } := by
  subst ht
  have hdue : s.rmu.conversionDue = some c := by
    rw [Rmu.conversionDue, hk]
    exact if_pos he
  change Host.Outcome.next (conversionEnd code s) = _
  rw [conversionEnd, hdue]

end

/-- Settles O17: each step of a conversion by its cases, the converter's choice by the order it looks in, and a blank's
end by what it releases. -/
theorem conversionEndAndBlankEnd : Obligations.ConversionEndAndBlankEnd := by
  refine ⟨?_, ?_, fun u h => Rmu.startNext_none h, fun u i c hi hc he hskip => Rmu.startNext_some hi hc he hskip, ?_⟩
  · rintro s c e code x k u v hconv he rfl rfl rfl rfl
    rw [exec_conversionEnd_due hconv he code rfl]
    rw [← protectStage_eq]
    rfl
  · rintro s c k jump x rfl
    exact ⟨fun h => tripStage_quiet c k jump s (Channel.trips_eq_false h), fun h0 hle hclear => 
      tripStage_trips c k jump s _ ((Channel.trips_iff _ _).mpr ⟨h0, hle, hclear⟩) rfl, sampleStage_off rfl,
      sampleStage_counts rfl, sampleStage_records rfl⟩
  · rintro s c x rfl hb hh hn u rfl
    exact congrArg Host.Outcome.next (endBlank_over ((s.rmu.blankOver_iff c).mpr ⟨hb, hh, hn⟩) rfl)

/-! ## The window (R45-R47, R54) -/

/-- A move of the window as its three parts. -/
def WindowMove.parts (m : WindowMove) : Window × Kind × Bool := (m.to_, m.kind, m.jump)

theorem windowMove_parts {w : Window} {low high hyst v : Nat} :
    (windowMove w low high hyst v).map WindowMove.parts =
      match w with
      | .inside =>
        if high < v then some (.above, .railLeaveHigh, false)
        else if v < low then some (.below, .railLeaveLow, false)
        else none
      | .above =>
        if v < low then some (.below, .railLeaveLow, true)
        else if v ≤ high - hyst then some (.inside, .railEnter, false)
        else none
      | .below =>
        if high < v then some (.above, .railLeaveHigh, true)
        else if min 65535 (low + hyst) ≤ v then some (.inside, .railEnter, false)
        else none
      | .unknown => none := by
  unfold windowMove
  cases w <;> dsimp only
  case unknown => rfl
  all_goals (repeat' split) <;> rfl

section
variable {s : State} {c : Fin 8} {k : Conversion} {x : Channel}

theorem windowStage_first (hx : x = (s.rmu.channels[c]'c.isLt)) (h : x.window = .unknown) {w : Window}
    (hw : w = initialWindow x.low x.high k.value) :
    windowStage c k s =
      produce (railRecord c .railInitial w false k.value k.saturated false s.now)
        (setChannel c { x with window := w, blankLatch := if x.blanked then w else x.blankLatch, last := some k }
          s) := by
  subst hx hw
  rw [windowStage, Channel.windowStep, if_pos h]

theorem windowStage_held (hx : x = (s.rmu.channels[c]'c.isLt)) (h : x.window ≠ .unknown)
    (hm : windowMove x.window x.low x.high x.hyst k.value = none) :
    windowStage c k s = setChannel c { x with last := some k } s := by
  subst hx
  rw [windowStage, Channel.windowStep, if_neg h, hm]

theorem windowStage_moved (hx : x = (s.rmu.channels[c]'c.isLt)) (h : x.window ≠ .unknown) {m : WindowMove}
    (hm : windowMove x.window x.low x.high x.hyst k.value = some m) :
    windowStage c k s =
      if x.blanked then setChannel c { x with window := m.to_, last := some k } s
      else
        produce (railRecord c m.kind m.to_ m.jump k.value k.saturated false s.now)
          (setChannel c { x with window := m.to_, last := some k } s) := by
  subst hx
  rw [windowStage, Channel.windowStep, if_neg h, hm]
  dsimp only
  cases (s.rmu.channels[c]'c.isLt).blanked <;> rfl

end

/-- Settles O18: a first conversion sets the window, a later one moves it by the move's row or holds it. -/
theorem windowMovesWithHysteresis : Obligations.WindowMovesWithHysteresis := by
  intro s c k x v hx hv
  subst hv
  refine ⟨fun h w hw => windowStage_first hx h hw, fun h row hrow => ?_⟩
  have hparts : row = (windowMove x.window x.low x.high x.hyst k.value).map WindowMove.parts :=
    hrow.trans windowMove_parts.symm
  cases hm : windowMove x.window x.low x.high x.hyst k.value with
  | none =>
    rw [hparts, hm, windowStage_held hx h hm]
    rfl
  | some m =>
    rw [hparts, hm, windowStage_moved hx h hm]
    rfl

/-! ## RAIL CONFIG (R43, R56) -/

theorem yesNoAt_of_eq {p : List Byte} {i : Nat} {b : Bool} (h : byteAt p i = if b then 0 else 1) :
    yesNoAt p i = some b := by
  cases b
  · exact yesNoAt_one h
  · exact yesNoAt_zero h

theorem railConfigAt_none {p : List Byte} (x : Channel)
    (h : numAt p 2 2 = 0 ∨ numAt p 6 2 < numAt p 4 2 ∨ 256 < numAt p 13 2 ∨ 2 ≤ byteAt p 1 ∨ 2 ≤ byteAt p 12) :
    railConfigAt p x = none := by
  unfold railConfigAt
  rcases h with h | h | h | h | h
  · simp [h]
  · simp [h]
  · simp [h]
  · simp [yesNoAt_none h]
  · simp [yesNoAt_none h]

theorem railConfigAt_some {p : List Byte} (x : Channel) {en pr : Bool} (he : yesNoAt p 1 = some en)
    (hpr : yesNoAt p 12 = some pr) (hg : 1 ≤ numAt p 2 2) (hw : numAt p 4 2 ≤ numAt p 6 2) (hd : numAt p 13 2 ≤ 256) :
    railConfigAt p x =
      some { x with
        enabled := en, gain := numAt p 2 2, low := numAt p 4 2, high := numAt p 6 2
        hyst := numAt p 8 2, trip := numAt p 10 2, protect := pr, decim := numAt p 13 2
        window := .unknown, samples := 0, blankLatch := if x.blanked then .unknown else x.blankLatch } := by
  rw [railConfigAt, he, hpr]
  have hok : ¬(numAt p 2 2 = 0 ∨ numAt p 6 2 < numAt p 4 2 ∨ 256 < numAt p 13 2) := by omega
  exact if_neg hok

section
variable {s : State} {q : Request}

theorem serveRailConfig_channel (h : 8 ≤ byteAt q.payload 0) : serveRailConfig q s = refuse q .range s := by
  rw [serveRailConfig, toFin_none h]

theorem serveRailConfig_range (h : ∀ x, railConfigAt q.payload x = none) : serveRailConfig q s = refuse q .range s := by
  rw [serveRailConfig]
  split
  · rfl
  · rw [h]

theorem serveRailConfig_stored {c : Fin 8} {x : Channel} (hc : byteAt q.payload 0 = c.val)
    (h : railConfigAt q.payload (s.rmu.channels[c]'c.isLt) = some x) :
    serveRailConfig q s = done q [] { s with rmu := (s.rmu.setChannel c x).afterConfig c } := by
  rw [serveRailConfig, toFin_of_eq hc]
  dsimp only
  rw [h]

end

/-- Settles O20: by the payload's ranges, and the converter by whether it holds the channel. -/
theorem railConfigStartsAfresh : Obligations.RailConfigStartsAfresh := by
  intro s q rest h
  rw [exec_head (c := .railConfig) rfl h]
  refine ⟨?_, ?_⟩
  · rintro (hbad | hbad)
    · exact congrArg Host.Outcome.next (serveRailConfig_channel hbad)
    · exact congrArg Host.Outcome.next (serveRailConfig_range fun x => railConfigAt_none x hbad)
  · rintro c en pr x u hc hen hpr hg hw hd hx rfl
    have hset := railConfigAt_some (s.rmu.channels[c]'c.isLt) (yesNoAt_of_eq hen) (yesNoAt_of_eq hpr) hg hw hd
    rw [← hx] at hset
    rw [serveRailConfig_stored (s := taken rest s) hc hset, Rmu.afterConfig]
    cases hk : s.rmu.converting with
    | none => rw [show ((taken rest s).rmu.setChannel c x).converting = none from hk]; rfl
    | some k => rw [show ((taken rest s).rmu.setChannel c x).converting = some k from hk]; rfl

/-! ## TRIP CLEAR (R50, R51) -/

section
variable {s : State} {q : Request} {rest : List Request}

theorem Rmu.clearTrips_channel (u : Rmu) (mask : Nat) (c : Fin 8) :
    ((u.clearTrips mask).channels[c]'c.isLt) =
      if mask.testBit c.val then { (u.channels[c]'c.isLt) with tripped := false } else (u.channels[c]'c.isLt) :=
  mapEach_get _ u.channels c

theorem Rmu.tripBytes_eq (u : Rmu) : u.tripBytes = u.channels.toList.map fun x => if x.tripped then 1 else 0 :=
  List.map_eq_flatMap.symm

theorem Rmu.tripHeld_iff (u : Rmu) :
    u.tripHeld = true ↔ ∃ c : Fin 8, (u.channels[c]'c.isLt).protect = true ∧ (u.channels[c]'c.isLt).tripped = true := by
  simp [Rmu.tripHeld]

theorem exec_tripClear_head (h : headIs s q rest codeTripClear) :
    exec .tripClear s =
      .next (answered q.ticket .done (s.rmu.clearTrips (byteAt q.payload 0)).tripBytes
        { taken rest s with rmu := s.rmu.clearTrips (byteAt q.payload 0) }) :=
  exec_head (c := .tripClear) rfl h

/-- A conversion that trips sets the latch and the alert. -/
theorem tripStage_sets {c : Fin 8} {k : Conversion} {jump : Bool}
    (h : (s.rmu.channels[c]'c.isLt).trips k.value = true) :
    ((tripStage c k jump s).rmu.channels[c]'c.isLt).tripped = true ∧ (tripStage c k jump s).alerting 2 := by
  rw [tripStage_trips c k jump s _ h rfl]
  refine ⟨?_, alerting_setAlert_self .railTrip _⟩
  rw [setAlert_rmu, produce_rmu, setChannel_rmu, Rmu.setChannel_channels, put_get_self]

end

/-- Settles O21: the clear latch by latch, and a trip of the same clock before or after it. -/
theorem tripClearEmptiesNamedLatches : Obligations.TripClearEmptiesNamedLatches := by
  intro s q rest h
  refine ⟨⟨_, _, exec_tripClear_head h, s.rmu.clearTrips_channel _, Rmu.tripBytes_eq _, fun t ht => ?_⟩, ?_⟩
  · obtain rfl := Host.Outcome.next.inj ((exec_tripClear_head h).symm.trans ht)
    exact Rmu.tripHeld_iff _
  · intro c k jump t u hc hpos hle hset
    refine ⟨tripStage_quiet c k jump s (Channel.trips_eq_false (.inr (.inr hset))), ?_⟩
    rintro ht rfl
    obtain rfl := Host.Outcome.next.inj ((exec_tripClear_head h).symm.trans ht)
    refine tripStage_sets (c := c) ((Channel.trips_iff _ _).mpr ?_)
    have hcleared := (s.rmu.clearTrips_channel (byteAt q.payload 0) c).trans (if_pos hc)
    change 0 < ((s.rmu.clearTrips _).channels[c]'c.isLt).trip ∧
      ((s.rmu.clearTrips _).channels[c]'c.isLt).trip ≤ k.value ∧
      ((s.rmu.clearTrips _).channels[c]'c.isLt).tripped = false
    rw [hcleared]
    exact ⟨hpos, hle, rfl⟩

end Sys2Proof.Machine
end

section
/-! Control lines: a line's move with its notice, SAFE entry, and the SAFE a protected trip leaves (R49, R50, R53, R172,
R182, R183). -/

namespace Sys2Proof.Machine

set_option Elab.async false

open Sys2Proof.Claims

/-! ## A line's move (R53, R54, R172) -/

theorem Line.moved_eq (l : Line) (st : LineState) (m : Moment) :
    l.moved st m =
      { l with
        state := st
        lastRelease := if l.state.active = true ∧ st = .released then some m else l.lastRelease } := by
  simp only [Line.moved, Bool.and_eq_true, beq_iff_eq]

section
variable {s : State} {d : Fin 8} {l : Line}

theorem noticeCeased_eq (d : Fin 8) (n : Nat) (s : State) :
    noticeCeased d n s =
      (List.finRange 8).foldl (fun t c => endBlank c t) { s with rmu := s.rmu.lineCeased d n } := rfl

theorem safeLines_eq (s : State) :
    forEach (List.finRange 8) safeLine s = (List.finRange 8).foldl (fun t d => safeLine d t) s := rfl

/-- SAFE entry's change of a line, with the record it makes. -/
theorem safeChange_eq (d : Fin 8) (st : LineState) (s : State) :
    safeChange d st s =
      moveLine d st (produce (newRecord 31 .driveSafe s.tbu.base (driveKey d .safe .none 0)) s) := rfl

theorem refuseLine_tbu (d : Fin 8) (r : LineRequest) (y : DriveReason) (s : State) :
    (refuseLine d r y s).tbu = s.tbu := by
  simp

end

/-! ## SAFE entry line by line (R182) -/

section
variable {s : State} {d : Fin 8}

theorem safeLine_released (h : (s.dcu.lines[d]'d.isLt).state = .released) :
    safeLine d s = if (s.dcu.lines[d]'d.isLt).safeAsserted then safeChange d .asserted s else s := by
  rw [safeLine, h]
  cases (s.dcu.lines[d]'d.isLt).safeAsserted <;> rfl

theorem safeLine_asserted (h : (s.dcu.lines[d]'d.isLt).state = .asserted) :
    safeLine d s = if (s.dcu.lines[d]'d.isLt).safeAsserted then s else safeChange d .released s := by
  rw [safeLine, h]
  cases (s.dcu.lines[d]'d.isLt).safeAsserted <;> rfl

theorem safeLine_pressing {w e : Nat} (h : (s.dcu.lines[d]'d.isLt).state = .pressing w e) :
    safeLine d s = if (s.dcu.lines[d]'d.isLt).safeAsserted then safeChange d .asserted s
      else safeChange d .released s := by
  rw [safeLine, h]
  cases (s.dcu.lines[d]'d.isLt).safeAsserted <;> rfl

theorem safeLine_deferred {r : LineRequest} {e : Nat} (h : (s.dcu.lines[d]'d.isLt).state = .deferred r e) :
    safeLine d s =
      if (s.dcu.lines[d]'d.isLt).safeAsserted then safeChange d .asserted (refuseLine d r .safe s)
      else moveLine d .released (refuseLine d r .safe s) := by
  rw [safeLine, h]
  cases (s.dcu.lines[d]'d.isLt).safeAsserted <;> rfl

end

/-! ## What SAFE entry keeps of the alerts and the trip latches -/

section
variable {s : State} {i : Fin 16} {c : Fin 8} {p t : Bool}

theorem alerting_endBlank {b : Fin 8} (h : s.alerting i) : (endBlank b s).alerting i := by
  unfold endBlank
  dsimp only
  (repeat' split)
  · exact alerting_produce h
  · exact h
  · exact h

/-- The channel's protect setting and trip latch. -/
def State.latch (s : State) (c : Fin 8) (p t : Bool) : Prop :=
  (s.rmu.channels[c]'c.isLt).protect = p ∧ (s.rmu.channels[c]'c.isLt).tripped = t

theorem State.latch.of_rmu {u : State} (h : s.latch c p t) (e : u.rmu = s.rmu) : u.latch c p t := by
  rwa [State.latch, e]

theorem latch_endBlank {b : Fin 8} (h : s.latch c p t) : (endBlank b s).latch c p t := by
  obtain ⟨htripped, hprotect, -⟩ := endBlank_trips b c s
  rw [State.latch, htripped, hprotect]
  exact h

theorem latch_noticeActive {d : Fin 8} {m : BitVec 8} (h : s.latch c p t) : (noticeActive d m s).latch c p t := by
  have hch := lineActive_channel s.rmu d m c
  unfold State.latch noticeActive
  rw [hch]
  split <;> exact h

theorem latch_noticeCeased {d : Fin 8} {n : Nat} (h : s.latch c p t) : (noticeCeased d n s).latch c p t := by
  refine forEach_keeps (fun u => u.latch c p t) _ _ _ (fun b _ u hu => latch_endBlank hu) ?_
  unfold State.latch
  rw [lineCeased_channel]
  split <;> exact h

theorem alerting_noticeCeased {d : Fin 8} {n : Nat} (h : s.alerting i) : (noticeCeased d n s).alerting i :=
  forEach_keeps (fun u => u.alerting i) _ _ _ (fun _ _ _ hu => alerting_endBlank hu) h

/-- What a line's notices keep, its move keeps. -/
theorem moveLine_keeps {P : State → Prop} {d : Fin 8} {st : LineState}
    (hline : ∀ l u, P u → P (setLine d l u)) (hactive : ∀ m u, P u → P (noticeActive d m u))
    (hceased : ∀ n u, P u → P (noticeCeased d n u)) (h : P s) : P (moveLine d st s) := by
  unfold moveLine
  dsimp only
  split_ifs
  · exact hactive _ _ (hline _ _ h)
  · exact hceased _ _ (hline _ _ h)
  · exact hline _ _ h

/-- What a line's move, a record and an answer keep, SAFE entry's steps keep. -/
theorem safeLine_keeps {P : State → Prop} {d : Fin 8} (hmove : ∀ st u, P u → P (moveLine d st u))
    (hproduce : ∀ r u, P u → P (produce r u)) (hrespond : ∀ q st p u, P u → P (respondTo q st p u)) (h : P s) :
    P (safeLine d s) := by
  have hchange (st u) (hu : P u) : P (safeChange d st u) := hmove _ _ (hproduce _ _ hu)
  have hrefuse (r) : P (refuseLine d r .safe s) := hrespond _ _ _ _ (hproduce _ _ h)
  unfold safeLine
  split
  · exact h
  · exact hchange _ _ h
  · exact hchange _ _ h
  · exact h
  · exact hchange _ _ h
  · exact hchange _ _ h
  · exact hmove _ _ (hrefuse _)
  · exact hchange _ _ (hrefuse _)

theorem alerting_safeLine {d : Fin 8} (h : s.alerting i) : (safeLine d s).alerting i :=
  safeLine_keeps (P := fun u => u.alerting i)
    (fun _ _ hu => moveLine_keeps (P := fun u => u.alerting i) (fun _ _ hu => hu) (fun _ _ hu => hu)
      (fun _ _ hu => alerting_noticeCeased hu) hu)
    (fun _ _ hu => alerting_produce hu) (fun _ _ _ _ hu => alerting_respondTo hu) h

theorem latch_safeLine {d : Fin 8} (h : s.latch c p t) : (safeLine d s).latch c p t :=
  safeLine_keeps (P := fun u => u.latch c p t)
    (fun _ _ hu => moveLine_keeps (P := fun u => u.latch c p t) (fun _ _ hu => hu) (fun _ _ hu => latch_noticeActive hu)
      (fun _ _ hu => latch_noticeCeased hu) hu)
    (fun _ _ hu => hu.of_rmu (by simp)) (fun _ _ _ _ hu => hu.of_rmu (by simp)) h

theorem enterSafe_keeps {P : State → Prop} (hline : ∀ d u, P u → P (safeLine d u))
    (hset : ∀ u : State, P u → P (setAlert .safe { u with dcu := { u.dcu with mode := .safe } })) (h : P s) :
    P (enterSafe s) := by
  unfold enterSafe
  split
  · exact h
  · exact hset _ (forEach_keeps P safeLine _ s (fun d _ u hu => hline d u hu) h)

theorem latch_enterSafe (h : s.latch c p t) : (enterSafe s).latch c p t :=
  enterSafe_keeps (P := fun u => u.latch c p t) (fun _ _ hu => latch_safeLine hu) (fun _ hu => hu) h

theorem alerting_enterSafe (h : s.alerting i) : (enterSafe s).alerting i :=
  enterSafe_keeps (P := fun u => u.alerting i) (fun _ _ hu => alerting_safeLine hu)
    (fun u hu => alerting_setAlert (s := { u with dcu := { u.dcu with mode := .safe } }) hu) h

theorem enterSafe_alerting (h : s.dcu.mode ≠ .safe) : (enterSafe s).alerting 3 := by
  rw [enterSafe, if_neg h]
  exact alerting_setAlert_self .safe _

end

/-! ## The SAFE a protected trip leaves (R50) -/

section
variable {s : State} {c : Fin 8} {k : Conversion} {p t : Bool}

theorem Rmu.startNext_channels (u : Rmu) : u.startNext.channels = u.channels := by
  unfold Rmu.startNext
  split <;> rfl

theorem latch_sampleStage (h : s.latch c p t) : (sampleStage c k s).latch c p t := by
  unfold sampleStage
  dsimp only
  split_ifs
  · exact h
  · refine State.latch.of_rmu (s := setChannel c { (s.rmu.channels[c]'c.isLt) with samples := 0 } s) ?_ (by simp)
    rwa [State.latch, setChannel_rmu, Rmu.setChannel_channels, put_get_self]
  · rwa [State.latch, setChannel_rmu, Rmu.setChannel_channels, put_get_self]

theorem alerting_sampleStage {i : Fin 16} (h : s.alerting i) : (sampleStage c k s).alerting i := by
  unfold sampleStage
  dsimp only
  split_ifs
  · exact h
  · exact alerting_produce h
  · exact h

/-- The window step leaves the channel's trip level, latch and protect setting. -/
theorem windowStage_channel (s : State) :
    ((windowStage c k s).rmu.channels[c]'c.isLt) =
      { ((s.rmu.channels[c]'c.isLt).windowStep k.value).channel with last := some k } := by
  unfold windowStage
  dsimp only
  split <;> simp only [produce_rmu, setChannel_rmu, Rmu.setChannel_channels, put_get_self]

theorem tripStage_protect {jump : Bool} (s : State) :
    ((tripStage c k jump s).rmu.channels[c]'c.isLt).protect = (s.rmu.channels[c]'c.isLt).protect := by
  unfold tripStage
  dsimp only
  split
  · simp only [setAlert_rmu, produce_rmu, setChannel_rmu, Rmu.setChannel_channels, put_get_self]
  · rfl

/-- The conversion of a protected channel that trips: SAFE entry with the latch set and RAIL-TRIP pending. -/
theorem conversionResult_trips {code : BitVec 12} {u : State} (hp : (s.rmu.channels[c]'c.isLt).protect = true)
    (ht : (s.rmu.channels[c]'c.isLt).trips (convert code (s.rmu.channels[c]'c.isLt).gain).value = true)
    (hu : u = conversionResult c code s) :
    ∃ v : State, u = enterSafe v ∧ v.dcu = s.dcu ∧ v.latch c true true ∧ v.alerting 2 := by
  refine ⟨_, hu.trans (by rw [conversionResult, hp, ht]; rfl), by simp, ?_⟩
  generalize ((s.rmu.channels[c]'c.isLt).windowStep _).jump = jump
  generalize hk : convert code (s.rmu.channels[c]'c.isLt).gain = k at ht ⊢
  obtain ⟨htrips, hprotect⟩ := windowStep_trips (s.rmu.channels[c]'c.isLt) k.value k.value
  have hwindow : ((windowStage c k s).rmu.channels[c]'c.isLt).trips k.value = true := by
    rw [windowStage_channel]
    exact htrips.trans ht
  obtain ⟨hlatch, halert⟩ := tripStage_sets (jump := jump) hwindow
  refine ⟨latch_sampleStage ⟨?_, hlatch⟩, alerting_sampleStage halert⟩
  rw [tripStage_protect, windowStage_channel]
  exact hprotect.trans hp

theorem enterSafe_lines (hs : s.dcu.safeHeld) (d : Fin 8) :
    ((enterSafe s).dcu.lines[d]'d.isLt).state = if (s.dcu.lines[d]'d.isLt).safeAsserted then .asserted
      else .released := by
  by_cases hm : s.dcu.mode = .safe
  · rw [enterSafe_inSafe s hm]
    exact hs hm d
  · exact (enterSafe_line d s hm).1

end

/-- Settles O19: a move by the change of activity, SAFE entry by each line's state, and a protected trip by what its
conversion and the SAFE entry keep. -/
theorem lineNoticesAndSafeEntry : Obligations.LineNoticesAndSafeEntry := by
  refine ⟨?_, fun _ _ => rfl, ?_, fun s => ⟨enterSafe_inSafe s, ?_⟩, ?_⟩
  · rintro s d st l u rfl hu
    rw [← Line.moved_eq] at hu
    replace hu : u = setLine d ((s.dcu.lines[d]'d.isLt).moved st { clock := s.clock, stamp := s.now }) s := hu
    refine ⟨fun h => (moveLine_same d st s h).trans hu.symm, fun h0 h1 => ⟨_, ?_, lineActive_channel s.rmu d _⟩,
      fun h0 h1 => ⟨_, ?_, lineCeased_channel s.rmu d _⟩⟩
    · rw [moveLine_active d st s h0 h1, hu]
      rfl
    · rw [moveLine_ceased d st s h0 h1, noticeCeased_eq, hu]
      rfl
  · rintro s d l rfl change hchange refused hrefused
    have hsafe (st t) (ht : t.tbu = s.tbu) : safeChange d st t = change st t := by
      rw [hchange, safeChange_eq, ht]
    have hrefuse (r) : refuseLine d r .safe s = refused r := (hrefused r).symm
    refine ⟨fun hl => ⟨fun h => ?_, fun h => ?_, fun w e h => ?_, fun r e h => ?_⟩,
      fun hl => ⟨fun h => ?_, fun h => ?_, fun w e h => ?_, fun r e h => ?_⟩⟩
    · rw [safeLine_released h, hl]
      rfl
    · rw [safeLine_asserted h, hl, ← hsafe _ _ rfl]
      rfl
    · rw [safeLine_pressing h, hl, ← hsafe _ _ rfl]
      rfl
    · rw [safeLine_deferred h, hl, hrefuse]
      rfl
    · rw [safeLine_released h, hl, ← hsafe _ _ rfl]
      rfl
    · rw [safeLine_asserted h, hl]
      rfl
    · rw [safeLine_pressing h, hl, ← hsafe _ _ rfl]
      rfl
    · rw [safeLine_deferred h, hl, hrefuse, ← hsafe _ _ (hrefuse r ▸ refuseLine_tbu d r .safe s)]
      rfl
  · intro hm u hu
    rw [← safeLines_eq] at hu
    simp only [enterSafe, if_neg hm, hu]
  · intro s c e code hheld hk he hp hclear hpos hle
    have ht := (Channel.trips_iff _ _).mpr ⟨hpos, hle, hclear⟩
    refine ⟨_, exec_conversionEnd_due hk he code rfl, ?_⟩
    obtain ⟨v, hv, hdcu, hlatch, halert⟩ :=
      conversionResult_trips (s := { s with pins := { s.pins with rails := put s.pins.rails c code } }) hp ht rfl
    rw [hv]
    have hset := latch_enterSafe hlatch
    have hchannels := (enterSafe v).rmu.startNext_channels
    refine ⟨enterSafe_mode v, fun d => ?_, ?_, ?_, alerting_enterSafe halert, fun hm => enterSafe_alerting ?_⟩
    · exact (enterSafe_lines (by rw [hdcu]; exact hheld) d).trans (by rw [hdcu])
    · exact (congrArg (fun x : Vector Channel 8 => (x[c]'c.isLt).tripped) hchannels).trans hset.2
    · refine Rmu.tripHeld_iff _ |>.mpr ⟨c, ?_⟩
      rw [hchannels]
      exact hset
    · rw [hdcu]
      exact hm

end Sys2Proof.Machine
end

section
/-! The bus decoders (4.1-4.4): the line filters, START and STOP, bits and bytes, the stuck clock, BUS CONFIG. -/

namespace Sys2Proof.Machine

set_option Elab.async false

open Sys2Proof.Claims

section
variable {s : State} {g : Fin 2} {b : Bus} {l : BusLine}

/-! ## Line filters (R59) -/

theorem busPin_setBusPin (g : Fin 2) (l : BusLine) (pin : Bool) (s : State) :
    (setBusPin g l pin s).busPin g l = pin := by
  cases l
  · exact put_get_self s.pins.busClock g pin
  · exact put_get_self s.pins.busData g pin

theorem setBus_self (g : Fin 2) (s : State) : setBus g (s.btu.buses[g]'g.isLt) s = s := by
  rw [setBus, put_get_eq]

theorem Bus.setLine_self (b : Bus) (l : BusLine) : b.setLine l (b.line l) = b := by cases l <;> rfl

theorem Bus.filterClocks_eq_zero : b.filterClocks = 0 ↔ b.width = 0 := by
  unfold Bus.filterClocks
  generalize b.width = w
  fin_cases w <;> decide

theorem busChangeDue_disabled (hb : b = (s.btu.buses[g]'g.isLt)) (h : b.enabled = false) :
    s.busChangeDue g l = none := by
  subst hb
  exact if_neg (by rw [h]; decide)

theorem busChangeDue_steady (hb : b = (s.btu.buses[g]'g.isLt)) (he : b.enabled = true)
    (hf : (b.line l).filter = .steady) :
    s.busChangeDue g l = if b.width = 0 ∧ s.busPin g l ≠ (b.line l).accepted then some s.tbu.base else none := by
  subst hb
  rw [State.busChangeDue, if_pos he, hf]
  exact if_congr (and_congr_left' Bus.filterClocks_eq_zero) rfl rfl

theorem busChangeDue_pending {t0 : Stamp} {n : Nat} (hb : b = (s.btu.buses[g]'g.isLt)) (he : b.enabled = true)
    (hf : (b.line l).filter = .pending t0 n) : s.busChangeDue g l = if b.filterClocks ≤ n then some t0 else none := by
  subst hb
  rw [State.busChangeDue, if_pos he, hf]

theorem enabled_of_busChangeDue (h : (s.busChangeDue g l).isSome = true) : (s.btu.buses[g]'g.isLt).enabled = true := by
  by_contra he
  rw [busChangeDue_disabled rfl (Bool.not_eq_true _ ▸ he)] at h
  cases h

theorem busLineDeparture_disabled (h : (s.btu.buses[g]'g.isLt).enabled = false) : busLineDeparture g l s = s :=
  if_neg (by rw [h]; decide)

/-- A sample while no change is due moves the filter. -/
theorem busLineDeparture_sample (hb : b = (s.btu.buses[g]'g.isLt)) (he : b.enabled = true)
    (hd : s.busChangeDue g l = none) :
    busLineDeparture g l s = setBus g (b.setLine l (s.filterSample g l)) s := by
  subst hb
  unfold busLineDeparture
  rw [if_pos he, hd]

theorem busLineDeparture_still (hb : b = (s.btu.buses[g]'g.isLt)) (he : b.enabled = true)
    (hd : s.busChangeDue g l = none)
    (hf : s.filterSample g l = b.line l) : busLineDeparture g l s = s := by
  rw [busLineDeparture_sample hb he hd, hf, Bus.setLine_self, hb, setBus_self]

/-- A data change that is due while the clock is low is taken silently. -/
theorem busLineDeparture_silent (hb : b = (s.btu.buses[g]'g.isLt)) (he : b.enabled = true)
    (hd : (s.busChangeDue g .data).isSome = true) (hc : b.clockLine.accepted = false) :
    busLineDeparture g .data s = setBus g { b with dataLine := b.dataLine.accept } s := by
  subst hb
  obtain ⟨t0, hdue⟩ := Option.isSome_iff_exists.mp hd
  unfold busLineDeparture
  rw [if_pos he, hdue]
  exact if_pos ⟨hc, hd⟩

/-- Every other change that is due is taken by a row of its own. -/
theorem busLineDeparture_due (hd : (s.busChangeDue g l).isSome = true)
    (hl : l = .clock ∨ (s.btu.buses[g]'g.isLt).clockLine.accepted = true) : busLineDeparture g l s = s := by
  obtain ⟨t0, hdue⟩ := Option.isSome_iff_exists.mp hd
  unfold busLineDeparture
  rw [if_pos (enabled_of_busChangeDue hd), hdue]
  cases l with
  | clock => rfl
  | data =>
    refine if_neg fun h => ?_
    rw [hl.resolve_left (by decide)] at h
    cases h.1

theorem filterSample_steady (hb : b = (s.btu.buses[g]'g.isLt)) (hf : (b.line l).filter = .steady) :
    s.filterSample g l =
      if s.busPin g l ≠ (b.line l).accepted ∧ b.width ≠ 0 then { b.line l with filter := .pending s.tbu.base 0 }
      else b.line l := by
  subst hb
  rw [State.filterSample, hf]
  exact if_congr (and_congr bne_iff_ne (not_congr Bus.filterClocks_eq_zero)) rfl rfl

theorem filterSample_pending {t0 : Stamp} {n : Nat} (hb : b = (s.btu.buses[g]'g.isLt))
    (hf : (b.line l).filter = .pending t0 n) :
    s.filterSample g l =
      if s.busPin g l = (b.line l).accepted ∧ n < b.filterClocks then { b.line l with filter := .steady }
      else b.line l := by
  subst hb
  rw [State.filterSample, hf]
  exact if_congr (and_congr_left' bne_eq_false_iff_eq) rfl rfl

end

theorem exec_busLineDeparture (g : Fin 2) (l : BusLine) (pin : Bool) (s : State) :
    exec (.busLineDeparture g l pin) s = .next (busLineDeparture g l (setBusPin g l pin s)) := rfl

/-- Settles O22: by the segment's enable, its width and the line's filter. -/
theorem busLineFilter : Obligations.BusLineFilter := by
  intro s g l b hb
  have hpin (pin : Bool) : b = ((setBusPin g l pin s).btu.buses[g]'g.isLt) := by rw [setBusPin_btu, hb]
  refine ⟨fun he => ⟨busChangeDue_disabled hb he, fun pin => ?_⟩, fun he hw hf => ?_, fun t0 n he hf => ?_,
    fun pin he hw hf hp => ?_, fun pin t0 n he hf hn hp => ?_, fun pin t0 n he hf hn hc => ?_,
    fun pin he hw hf hc hp => ?_, fun pin he h => ?_, fun pin hd hl => ?_⟩
  · rw [exec_busLineDeparture, busLineDeparture_disabled (hpin pin ▸ he)]
  · rw [busChangeDue_steady hb he hf]
    by_cases hp : s.busPin g l = (b.line l).accepted <;> simp [hp, hw]
  · rw [busChangeDue_pending hb he hf]
    rfl
  · rw [exec_busLineDeparture, busLineDeparture_sample (hpin pin) he, filterSample_steady (hpin pin) hf,
      busPin_setBusPin,
      if_pos ⟨hp, hw⟩, setBusPin_tbu]
    rw [busChangeDue_steady (hpin pin) he hf]
    exact if_neg fun h => hw h.1
  · rw [exec_busLineDeparture, busLineDeparture_sample (hpin pin) he, filterSample_pending (hpin pin) hf,
      busPin_setBusPin,
      if_pos ⟨hp, hn⟩]
    rw [busChangeDue_pending (hpin pin) he hf]
    exact if_neg (by omega)
  · have hdata : b = ((setBusPin g .data pin s).btu.buses[g]'g.isLt) := hb
    rw [exec_busLineDeparture, busLineDeparture_silent hdata he _ hc]
    · rfl
    · rw [busChangeDue_pending (l := .data) hdata he hf, if_pos hn]
      rfl
  · have hdata : b = ((setBusPin g .data pin s).btu.buses[g]'g.isLt) := hb
    rw [exec_busLineDeparture, busLineDeparture_silent hdata he _ hc]
    · rfl
    · rw [busChangeDue_steady (l := .data) hdata he hf, busPin_setBusPin, if_pos ⟨hw, hp⟩]
      rfl
  · rw [exec_busLineDeparture]
    refine congrArg Host.Outcome.next ?_
    rcases h with ⟨hf, hp⟩ | ⟨t0, n, hf, hn, hp⟩
    · refine busLineDeparture_still (hpin pin) he ?_ ?_
      · rw [busChangeDue_steady (hpin pin) he hf, busPin_setBusPin]
        exact if_neg fun h => h.2 hp
      · rw [filterSample_steady (hpin pin) hf, busPin_setBusPin]
        exact if_neg fun h => h.1 hp
    · refine busLineDeparture_still (hpin pin) he ?_ ?_
      · rw [busChangeDue_pending (hpin pin) he hf]
        exact if_neg (by omega)
      · rw [filterSample_pending (hpin pin) hf, busPin_setBusPin]
        exact if_neg fun h => hp h.1
  · exact congrArg Host.Outcome.next (busLineDeparture_due hd (hl.imp_right fun h => hpin pin ▸ h))

/-! ## START and STOP (R61, R63-R65) -/

section
variable {s : State} {g : Fin 2} {b : Bus}

theorem setBus_get (g : Fin 2) (b : Bus) (s : State) :
    ((setBus g b s).btu.buses[g]'g.isLt) = b := put_get_self s.btu.buses g b

theorem setBus_setBus (g : Fin 2) (b b' : Bus) (s : State) : setBus g b' (setBus g b s) = setBus g b' s := by
  simp only [setBus, put_put]

theorem produce_setBus (r : Record) (g : Fin 2) (b : Bus) (s : State) :
    produce r (setBus g b s) = setBus g b (produce r s) := rfl

/-- The open record's close: its record placed, and no record open. -/
theorem closeBus_setBus (g : Fin 2) (x : Bool) (b : Bus) (s : State) :
    closeBus g x (setBus g b s) =
      setBus g { b with openRecord := none }
        (match b.openRecord with
          | none => s
          | some o => produce (b.closingRecord g o x) s) := by
  unfold closeBus
  dsimp only
  rw [setBus_get]
  cases ho : b.openRecord with
  | none =>
    have hself : { b with openRecord := none } = b := by rw [← ho]
    rw [hself]
  | some o =>
    dsimp only
    rw [setBus_setBus, produce_setBus]

theorem busStart_eq {t0 : Stamp} (hb : b = (s.btu.buses[g]'g.isLt)) (hd : s.busChangeDue g .data = some t0)
    (hc : b.clockLine.accepted = true) (ha : b.dataLine.accepted = true) :
    busStart g s =
      setBus g
        { b.acceptData with phase := .address, bitCount := 0, byte := 0, openRecord := some (openBusRecord t0) }
        (match b.openRecord with
          | none => s
          | some o => produce (b.closingRecord g o true) s) := by
  subst hb
  rw [busStart, hd]
  dsimp only
  rw [if_pos ⟨hc, ha⟩, closeBus_setBus, setBus_get, setBus_setBus]
  rfl

theorem busStop_eq {t0 : Stamp} (hb : b = (s.btu.buses[g]'g.isLt)) (hd : s.busChangeDue g .data = some t0)
    (hc : b.clockLine.accepted = true) (ha : b.dataLine.accepted = false) :
    busStop g s =
      setBus g { b.acceptData with phase := .idle, bitCount := 0, byte := 0, openRecord := none }
        (match b.openRecord with
          | none => s
          | some o => produce (b.closingRecord g o false) s) := by
  subst hb
  rw [busStop, hd]
  dsimp only
  rw [if_pos ⟨hc, ha⟩, closeBus_setBus, setBus_get, setBus_setBus]
  rfl

end

/-! ## The record that closes a transaction (R63-R65) -/

section
variable {b : Bus} {g : Fin 2} {o : BusRecord} {x : Bool}

theorem Bus.closingRecord_place (b : Bus) (g : Fin 2) (o : BusRecord) (x : Bool) :
    (b.closingRecord g o x).source = srcBus g ∧ (b.closingRecord g o x).stamp = o.stamp := by
  unfold Bus.closingRecord
  split
  · exact ⟨rfl, rfl⟩
  · split <;> exact ⟨rfl, rfl⟩
  · exact ⟨rfl, rfl⟩

theorem Bus.closingRecord_ignore (h : b.phase = .ignore) :
    b.closingRecord g o x = busRecord g .busAddrNak o o.address o.count x := by
  rw [Bus.closingRecord, h]

theorem Bus.closingRecord_data (h : b.phase = .data) (hn : b.bitCount = 0) :
    b.closingRecord g o x = busRecord g (if o.address.getLsbD 0 then .busRead else .busWrite) o o.address
      o.count x := by
  rw [Bus.closingRecord, h]
  exact if_pos hn

theorem Bus.closingRecord_inside (h : b.phase = .address ∨ (b.phase = .data ∧ 1 ≤ b.bitCount)) :
    b.closingRecord g o x = b.errorRecord g o := by
  rcases h with h | ⟨h, hn⟩
  · rw [Bus.closingRecord, h]
  · rw [Bus.closingRecord, h]
    exact if_neg (by omega)

theorem busRecord_kept {k : Kind} (hk : k ≠ .busAddrNak) (a : Byte) (n : Nat) :
    (busRecord g k o a n x).body = o.body ∧
      (busRecord g k o a n x).flags = { truncated := o.truncated, continued := x } := by
  simp [busRecord, hk]

theorem busRecord_nak (a : Byte) (n : Nat) :
    (busRecord g .busAddrNak o a n x).body = [] ∧ (busRecord g .busAddrNak o a n x).flags = { continued := x } := by
  simp [busRecord]

end

/-- Settles O23: START and STOP by the open record, and the record that closes it by the phase. -/
theorem busStartAndStop : Obligations.BusStartAndStop := by
  refine ⟨fun s g t0 b hb hd hc => ⟨fun ha => ?_, fun ha => ?_⟩, ?_⟩
  · refine congrArg Host.Outcome.next ((busStart_eq hb hd hc ha).trans ?_)
    rw [Bus.acceptData, LineFilter.accept, ha]
    rfl
  · refine congrArg Host.Outcome.next ((busStop_eq hb hd hc ha).trans ?_)
    rw [Bus.acceptData, LineFilter.accept, ha]
    rfl
  · rintro b g o x r rfl
    obtain ⟨hsource, hstamp⟩ := b.closingRecord_place g o x
    refine ⟨hsource, hstamp, fun h => ?_, fun h hn => ?_, fun h => ?_⟩
    · rw [Bus.closingRecord_ignore h]
      obtain ⟨hbody, hflags⟩ := busRecord_nak (g := g) (o := o) (x := x) o.address o.count
      exact ⟨rfl, hbody, hflags, rfl⟩
    · rw [Bus.closingRecord_data h hn]
      obtain ⟨hbody, hflags⟩ := busRecord_kept (g := g) (o := o) (x := x)
        (k := if o.address.getLsbD 0 then .busRead else .busWrite) (by split <;> decide) o.address o.count
      exact ⟨rfl, hbody, hflags, rfl⟩
    · rw [Bus.closingRecord_inside h]
      obtain ⟨hbody, hflags⟩ := busRecord_kept (g := g) (o := o) (x := false) (k := .busError) (by decide)
        (b.addressSoFar o) b.bitCount
      exact ⟨rfl, hbody, hflags, rfl⟩

/-! ## Bits, bytes and the stuck clock (R60-R62, R66) -/

section
variable {s : State} {g : Fin 2} {b : Bus} {t0 : Stamp}

theorem Bus.takesBit_iff (b : Bus) : b.takesBit = true ↔ b.highClean = true ∧
    (b.phase = .address ∨ b.phase = .data) := by
  simp [Bus.takesBit]

theorem bitTaken_rise (hb : b = (s.btu.buses[g]'g.isLt)) (hd : s.busChangeDue g .clock = some t0)
    (hc : b.clockLine.accepted = false) (hs : b.stuck = false) : bitTaken g s = setBus g b.clockRise s := by
  subst hb
  rw [bitTaken, hd]
  simp [hc, hs, -Fin.getElem_fin]

theorem bitTaken_fall (hb : b = (s.btu.buses[g]'g.isLt)) (hd : s.busChangeDue g .clock = some t0)
    (hc : b.clockLine.accepted = true) (ht : ¬b.takesBit = true) : bitTaken g s = setBus g b.clockFall s := by
  subst hb
  rw [bitTaken, hd]
  simp [hc, ht, -Fin.getElem_fin]

theorem bitTaken_bit (hb : b = (s.btu.buses[g]'g.isLt)) (hd : s.busChangeDue g .clock = some t0)
    (hc : b.clockLine.accepted = true) (ht : b.takesBit = true) (hn : b.bitCount < 8) :
    bitTaken g s = setBus g b.takeBit.clockFall s := by
  subst hb
  rw [bitTaken, hd]
  simp [hc, ht, hn, -Fin.getElem_fin]

theorem busByteEnd_eq (hb : b = (s.btu.buses[g]'g.isLt)) (hd : s.busChangeDue g .clock = some t0)
    (hc : b.clockLine.accepted = true) (ht : b.takesBit = true) (hn : 8 ≤ b.bitCount) :
    busByteEnd g s = setBus g b.endByte.clockFall s := by
  subst hb
  exact if_pos ⟨by rw [hd]; rfl, hc, ht, hn⟩

theorem stuckEpisodeEnd_eq (hb : b = (s.btu.buses[g]'g.isLt)) (hd : s.busChangeDue g .clock = some t0)
    (hc : b.clockLine.accepted = false) (hs : b.stuck = true) :
    stuckEpisodeEnd g s = setBus g { b.clockRise with stuck := false } s := by
  subst hb
  exact if_pos ⟨by rw [hd]; rfl, hc, hs⟩

theorem Bus.clockFall_high (h : b.clockLine.accepted = true) :
    b.clockFall =
      { b with clockLine := { accepted := false, filter := .steady }, highClean := false, stuckTimer := 0 } := by
  rw [Bus.clockFall, LineFilter.accept, h]
  rfl

theorem Bus.endByte_address (h : b.phase = .address) :
    b.endByte =
      { b with
        phase := if b.highBit then .ignore else .data
        openRecord := b.openRecord.map fun o => { o with address := b.byte }, bitCount := 0, byte := 0 } := if_pos h

theorem Bus.endByte_data (h : b.phase = .data) :
    b.endByte = { b with openRecord := b.openRecord.map fun o => o.addByte b.byte, bitCount := 0, byte := 0 } :=
  if_neg (by rw [h]; decide)

theorem BusRecord.addByte_eq (o : BusRecord) (x : Byte) :
    o.addByte x =
      { o with
        count := min 65535 (o.count + 1)
        first := if o.count = 0 then x else o.first
        second := if o.count = 1 then x else o.second
        body := if o.count ≤ 15 then o.body ++ [x] else o.body
        truncated := o.truncated || decide (16 ≤ o.count) } := by
  have h1 : min 65535 (o.count + 1) = 1 ↔ o.count = 0 := by omega
  have h2 : min 65535 (o.count + 1) = 2 ↔ o.count = 1 := by omega
  have h16 : min 65535 (o.count + 1) ≤ 16 ↔ o.count ≤ 15 := by omega
  have h17 : 17 ≤ min 65535 (o.count + 1) ↔ 16 ≤ o.count := by omega
  simp only [BusRecord.addByte, h1, h2, h16, h17]

theorem stuckTimeout_eq (hb : b = (s.btu.buses[g]'g.isLt)) (hd : b.stuckDue = true) {u : State}
    (hu : u = setBus g { b with openRecord := none, phase := .idle, bitCount := 0, byte := 0, stuck := true } s) :
    stuckTimeout g s =
      setAlert .busStuck
        (produce (newRecord (srcBus g) .busStuck s.tbu.base 0)
          (match b.openRecord with
            | none => u
            | some o => produce (b.errorRecord g o) u)) := by
  subst hb hu
  rw [stuckTimeout, if_pos hd]
  dsimp only
  cases (s.btu.buses[g]'g.isLt).openRecord <;> rfl

theorem Bus.errorRecord_eq (b : Bus) (g : Fin 2) (o : BusRecord) :
    b.errorRecord g o =
      { newRecord (srcBus g) .busError o.stamp
          (busKey (if b.phase = .address then b.byte <<< (8 - b.bitCount) else o.address) o.first o.second
            b.bitCount) with
        body := o.body, flags := { truncated := o.truncated } } := by
  obtain ⟨hbody, hflags⟩ := busRecord_kept (g := g) (o := o) (x := false) (k := .busError) (by decide)
    (b.addressSoFar o) b.bitCount
  rw [← hbody, ← hflags]
  rfl

end

/-- Settles O24: a clock edge by what the high phase gives, and the stuck clock by its timeout and its end. -/
theorem busBitsBytesAndStuckClock : Obligations.BusBitsBytesAndStuckClock := by
  refine ⟨fun s g t0 b hb hd => ⟨fun hc hs => ?_, ?_⟩, fun s g b hb => ⟨?_, fun t0 hd hc hs => ?_⟩⟩
  · refine congrArg Host.Outcome.next ((bitTaken_rise hb hd hc hs).trans ?_)
    rw [Bus.clockRise, LineFilter.accept, hc]
    rfl
  · rintro hc f hf
    refine ⟨fun hno => ?_, fun hclean hphase hn => ?_, fun hclean hphase hn => ?_, fun hclean hphase hn => ?_⟩
    · refine congrArg Host.Outcome.next ((bitTaken_fall hb hd hc ?_).trans ?_)
      · rw [Bus.takesBit_iff]
        rintro ⟨hclean, hphase⟩
        rcases hno with h | h | h <;> simp_all
      · rw [Bus.clockFall_high hc, hf]
    · refine congrArg Host.Outcome.next ((bitTaken_bit hb hd hc (b.takesBit_iff.mpr ⟨hclean, hphase⟩) hn).trans ?_)
      rw [Bus.clockFall_high (b := b.takeBit) hc, hf]
      rfl
    · refine congrArg Host.Outcome.next
        ((busByteEnd_eq hb hd hc (b.takesBit_iff.mpr ⟨hclean, .inl hphase⟩) hn).trans ?_)
      rw [Bus.endByte_address hphase, Bus.clockFall_high, hf]
      exact hc
    · refine congrArg Host.Outcome.next
        ((busByteEnd_eq hb hd hc (b.takesBit_iff.mpr ⟨hclean, .inr hphase⟩) hn).trans ?_)
      rw [Bus.endByte_data hphase, Bus.clockFall_high, hf]
      · simp only [BusRecord.addByte_eq]
      · exact hc
  · intro he hc hs htime u hu
    have hdue : b.stuckDue = true := by simp [Bus.stuckDue, he, hc, hs, htime]
    refine congrArg Host.Outcome.next ((stuckTimeout_eq hb hdue hu).trans ?_)
    simp only [Bus.errorRecord_eq] <;> rfl
  · refine congrArg Host.Outcome.next ((stuckEpisodeEnd_eq hb hd hc hs).trans ?_)
    rw [Bus.clockRise, LineFilter.accept, hc]
    rfl

end Sys2Proof.Machine
end

section
/-! The console receivers (4.5, 4.6): sample ticks, bytes, breaks, the idle close; BUS CONFIG and CONSOLE CONFIG. -/

namespace Sys2Proof.Machine

set_option Elab.async false

open Sys2Proof.Claims

section
variable {s : State} {r : Fin 2} {c : Console}

theorem setConsole_get (r : Fin 2) (c : Console) (s : State) : ((setConsole r c s).btu.consoles[r]'r.isLt) = c :=
  put_get_self s.btu.consoles r c

theorem setConsole_setConsole (r : Fin 2) (c c' : Console) (s : State) :
    setConsole r c' (setConsole r c s) = setConsole r c' s := by
  simp only [setConsole, put_put]

theorem produce_setConsole (x : Record) (r : Fin 2) (c : Console) (s : State) :
    produce x (setConsole r c s) = setConsole r c (produce x s) := rfl

theorem setConPin_get (r : Fin 2) (pin : Bool) (s : State) : ((setConPin r pin s).pins.con[r]'r.isLt) = pin :=
  put_get_self s.pins.con r pin

/-! ## The record in progress (R73) -/

theorem closeText_none (h : (s.btu.consoles[r]'r.isLt).openRecord = none) : closeText r s = s := by
  rw [closeText, h]

theorem closeText_some {o : TextRecord} (hc : c = (s.btu.consoles[r]'r.isLt)) (h : c.openRecord = some o) :
    closeText r s = produce (textRecord r o) (setConsole r { c with openRecord := none, idleTimer := none } s) := by
  subst hc
  rw [closeText, h]

/-- A byte added to the record in progress. -/
theorem addText_setConsole (x : Byte) (framing : Bool) {o : TextRecord} (ho : o = c.appended x framing) :
    addText r x framing (setConsole r c s) =
      if x = 0x0A ∨ 16 ≤ o.bytes.length then
        produce (textRecord r o) (setConsole r { c with openRecord := none, idleTimer := none } s)
      else setConsole r { c with openRecord := some o, idleTimer := some 0 } s := by
  subst ho
  unfold addText
  dsimp only
  rw [setConsole_get, setConsole_setConsole]
  split
  · rw [closeText_some (setConsole_get r _ s).symm rfl, setConsole_setConsole]
  · rfl

/-! ## Sample ticks (R70-R72) -/

theorem exec_sampleTick {pin : Bool} (hc : c = (s.btu.consoles[r]'r.isLt)) (he : c.enabled = true)
    (ht : c.tickDue = true)
    (hx : c.tickEffect pin = .move) :
    exec (.sampleTick r pin) s = .next (setConsole r (c.moved pin s.tbu.base) (setConPin r pin s)) := by
  subst hc
  refine congrArg Host.Outcome.next ?_
  unfold sampleTick
  dsimp only
  rw [setConPin_get]
  exact if_pos ⟨he, ht, hx⟩

theorem exec_consoleByte {pin framing : Bool} {next : RxState} (hc : c = (s.btu.consoles[r]'r.isLt))
    (he : c.enabled = true)
    (ht : c.tickDue = true) (hx : c.tickEffect pin = .byte framing next) :
    exec (.consoleByte r pin) s =
      .next (addText r c.data framing (setConsole r { c.ticked with rx := next } (setConPin r pin s))) := by
  subst hc
  refine congrArg Host.Outcome.next ?_
  unfold consoleByte
  dsimp only
  rw [setConPin_get]
  refine (if_pos ⟨he, ht⟩).trans ?_
  rw [show ((setConPin r pin s).btu.consoles[r]'r.isLt).tickEffect pin = .byte framing next from hx]
  rfl

theorem exec_consoleBreak (hc : c = (s.btu.consoles[r]'r.isLt)) (he : c.enabled = true) (ht : c.tickDue = true)
    (hx : c.tickEffect false = .break_) :
    exec (.consoleBreak r) s =
      .next (produce (newRecord (srcConsole r) .consoleBreak c.detect 0)
        (closeText r (setConsole r { c.ticked with rx := .waitHigh } (setConPin r false s)))) := by
  subst hc
  refine congrArg Host.Outcome.next ?_
  unfold consoleBreak
  dsimp only
  rw [setConPin_get]
  refine (if_pos ⟨he, ht⟩).trans ?_
  rw [show ((setConPin r false s).btu.consoles[r]'r.isLt).tickEffect false = .break_ from hx]
  rfl

end

section
variable {c : Console} {pin : Bool} {now : Stamp}

theorem Console.tickEffect_other (h : c.rx ≠ .stop) (h' : c.rx ≠ .breakCheck) : c.tickEffect pin = .move := by
  unfold Console.tickEffect
  split
  · next e => exact absurd e h
  · next e => exact absurd e h'
  · rfl

theorem Console.tickEffect_stop (h : c.rx = .stop) :
    c.tickEffect pin =
      if c.ticks + 1 < 152 then .move
      else if pin then .byte false .hunt
      else if c.data = 0 then .move
      else .byte true .waitHigh := by
  rw [Console.tickEffect, h]

theorem Console.tickEffect_breakCheck (h : c.rx = .breakCheck) :
    c.tickEffect pin = if pin then .byte true .hunt else if c.ticks + 1 < 160 then .move else .break_ := by
  rw [Console.tickEffect, h]

theorem Console.moved_waitHigh (h : c.rx = .waitHigh) :
    c.moved pin now = { c with tickDue := false, rx := if pin then .hunt else .waitHigh } := by
  rw [Console.moved, h]

theorem Console.moved_hunt (h : c.rx = .hunt) :
    c.moved pin now =
      if pin then { c with tickDue := false }
      else { c with tickDue := false, rx := .confirm, detect := now, ticks := 0, bits := [] } := by
  unfold Console.moved
  rw [h]

theorem Console.moved_confirm (h : c.rx = .confirm) :
    c.moved pin now =
      if c.ticks + 1 < 8 then { c with tickDue := false, ticks := c.ticks + 1 }
      else if pin then { c with tickDue := false, ticks := c.ticks + 1, rx := .hunt }
      else { c with tickDue := false, ticks := c.ticks + 1, rx := .data, idleTimer := none } := by
  cases c
  cases h
  rfl

theorem Console.moved_data (h : c.rx = .data) :
    c.moved pin now =
      if c.ticks + 1 < 8 + 16 * (c.bits.length + 1) then { c with tickDue := false, ticks := c.ticks + 1 }
      else
        { c with
          tickDue := false, ticks := c.ticks + 1, bits := c.bits ++ [pin]
          rx := if 7 ≤ c.bits.length then .stop else .data } := by
  cases c
  cases h
  rfl

theorem Console.moved_stop (h : c.rx = .stop) :
    c.moved pin now =
      if c.ticks + 1 < 152 then { c with tickDue := false, ticks := c.ticks + 1 }
      else { c with tickDue := false, ticks := c.ticks + 1, rx := .breakCheck } := by
  cases c
  cases h
  rfl

theorem Console.moved_breakCheck (h : c.rx = .breakCheck) :
    c.moved pin now = { c with tickDue := false, ticks := c.ticks + 1 } := by
  cases c
  cases h
  rfl

end

/-! ## A whole frame (R71) -/

/-- The receiver e stands k ticks after the detection of a frame of byte x, which c began: in CONFIRM up to the start
bit's middle, then with the bits sampled so far, and in STOP after the eighth. -/
structure Console.InFrameAt (c : Console) (x : Byte) (k : Nat) (e : Console) : Prop where
  ticks : e.ticks = k
  detect : e.detect = c.detect
  confirm : k < 8 → e.rx = .confirm ∧ e.bits = []
  sampled : 8 ≤ k → e.rx = (if 136 ≤ k then .stop else .data) ∧ e.bits = (List.range ((k - 8) / 16)).map x.getLsbD

theorem framePin_start (x : Byte) {k : Nat} (h : k < 16) : framePin x k = false := if_pos h

/-- In the middle of data bit n the line carries the bit. -/
theorem framePin_bit (x : Byte) {n k : Nat} (hn : n < 8) (hk : k = 8 + 16 * (n + 1)) : framePin x k = x.getLsbD n := by
  have hbit : k / 16 - 1 = n := by omega
  rw [framePin, if_neg (by omega), if_pos (by omega), hbit]

namespace Console.InFrameAt

variable {c e : Console} {x : Byte} {k : Nat} {now : Stamp}

theorem moved_confirm (h : c.InFrameAt x k e) (hk : k < 8) :
    c.InFrameAt x (k + 1) (e.moved (framePin x (k + 1)) now) := by
  obtain ⟨hrx, hbits⟩ := h.confirm hk
  rw [Console.moved_confirm hrx, framePin_start x (by omega), h.ticks]
  split
  · next hlt => exact ⟨rfl, h.detect, fun _ => ⟨hrx, hbits⟩, fun h8 => absurd hlt (by omega)⟩
  · next hlt =>
    obtain rfl : k = 7 := by omega
    exact ⟨rfl, h.detect, fun h8 => absurd h8 hlt, fun _ => ⟨rfl, hbits⟩⟩

theorem moved_data (h : c.InFrameAt x k e) (h8 : 8 ≤ k) (hk : k < 136) :
    c.InFrameAt x (k + 1) (e.moved (framePin x (k + 1)) now) := by
  obtain ⟨hrx, hbits⟩ := h.sampled h8
  rw [if_neg (by omega)] at hrx
  have hlength : e.bits.length = (k - 8) / 16 := by rw [hbits, List.length_map, List.length_range]
  rw [Console.moved_data hrx, h.ticks, hlength]
  split
  · next hlt =>
    refine ⟨rfl, h.detect, fun h => absurd h (by omega), fun _ => ⟨?_, ?_⟩⟩
    · exact hrx.trans (if_neg (by omega)).symm
    · rw [hbits, show (k + 1 - 8) / 16 = (k - 8) / 16 by omega]
  · next hlt =>
    refine ⟨rfl, h.detect, fun h => absurd h (by omega), fun _ => ⟨?_, ?_⟩⟩
    · exact if_congr (by omega) rfl rfl
    · rw [hbits, show (k + 1 - 8) / 16 = (k - 8) / 16 + 1 by omega, List.range_succ, List.map_append,
        framePin_bit x (n := (k - 8) / 16) (by omega) (by omega)]
      rfl

theorem moved_stop (h : c.InFrameAt x k e) (h136 : 136 ≤ k) (hk : k < 151) :
    c.InFrameAt x (k + 1) (e.moved (framePin x (k + 1)) now) := by
  obtain ⟨hrx, hbits⟩ := h.sampled (by omega)
  rw [if_pos h136] at hrx
  rw [Console.moved_stop hrx, h.ticks, if_pos (by omega)]
  refine ⟨rfl, h.detect, fun h => absurd h (by omega), fun _ => ⟨?_, ?_⟩⟩
  · exact hrx.trans (if_pos (by omega)).symm
  · rw [hbits, show (k + 1 - 8) / 16 = (k - 8) / 16 by omega]

theorem moved (h : c.InFrameAt x k e) (hk : k < 151) : c.InFrameAt x (k + 1) (e.moved (framePin x (k + 1)) now) := by
  rcases Nat.lt_or_ge k 8 with h8 | h8
  · exact h.moved_confirm h8
  · rcases Nat.lt_or_ge k 136 with h136 | h136
    · exact h.moved_data h8 h136
    · exact h.moved_stop h136 hk

end Console.InFrameAt

theorem Console.inFrameAt_ticks {c : Console} {x : Byte} (now : Stamp) (hrx : c.rx = .confirm) (ht : c.ticks = 0)
    (hb : c.bits = []) {n : Nat} (hn : n ≤ 151) :
    c.InFrameAt x n ((List.range n).foldl (fun (e : Console) k => e.moved (framePin x (k + 1)) now) c) := by
  induction n with
  | zero => exact ⟨ht, rfl, fun _ => ⟨hrx, hb⟩, fun h => absurd h (by omega)⟩
  | succ n ih =>
    rw [List.range_succ, List.foldl_append]
    exact (ih (by omega)).moved (by omega)

theorem bitsToNat_testBit (n v : Nat) : bitsToNat ((List.range n).map v.testBit) = v % 2 ^ n := by
  induction n generalizing v with
  | zero => exact (Nat.mod_one v).symm
  | succ n ih =>
    have htail : (List.range n).map (v.testBit ∘ Nat.succ) = (List.range n).map (v / 2).testBit :=
      List.map_congr_left fun i _ => Nat.testBit_succ v i
    rw [List.range_succ_eq_map, List.map_cons, List.map_map, htail, bitsToNat, ih, Nat.pow_succ', Nat.mod_mul]
    congr 1
    rcases Nat.mod_two_eq_zero_or_one v with h | h <;> simp [Nat.testBit_zero, h]

/-- The eight bits of a byte, least significant first, are the byte. -/
theorem bitsToNat_byte (x : Byte) : BitVec.ofNat 8 (bitsToNat ((List.range 8).map x.getLsbD)) = x := by
  rw [show bitsToNat ((List.range 8).map x.getLsbD) = x.toNat % 2 ^ 8 from bitsToNat_testBit 8 x.toNat,
    Nat.mod_eq_of_lt x.isLt, BitVec.ofNat_toNat, BitVec.setWidth_eq]

/-- Settles O26: a tick by the receive state, and a frame by what has been sampled after each of its ticks. -/
theorem consoleTicksReceiveAFrame : Obligations.ConsoleTicksReceiveAFrame := by
  refine ⟨?_, ?_⟩
  · rintro s r pin c u hc he ht rfl
    have hother (h : c.rx ≠ .stop) (h' : c.rx ≠ .breakCheck) :=
      exec_sampleTick (pin := pin) hc he ht (Console.tickEffect_other h h')
    refine ⟨fun h => ?_, fun h => ?_, fun h hk => ?_, fun h hk => ?_, fun h hk => ?_, fun h hk => ?_, fun h hk => ?_,
      fun h hk hp hx => ?_, fun h hk hp => ?_⟩
    · rw [hother (by rw [h]; decide) (by rw [h]; decide), Console.moved_waitHigh h]
    · rw [hother (by rw [h]; decide) (by rw [h]; decide), Console.moved_hunt h]
    · rw [hother (by rw [h]; decide) (by rw [h]; decide), Console.moved_confirm h, if_pos hk]
    · rw [hother (by rw [h]; decide) (by rw [h]; decide), Console.moved_confirm h, if_neg (by omega), hk]
    · rw [hother (by rw [h]; decide) (by rw [h]; decide), Console.moved_data h, if_pos hk]
    · rw [hother (by rw [h]; decide) (by rw [h]; decide), Console.moved_data h, if_neg (by omega)]
    · rw [exec_sampleTick hc he ht ((Console.tickEffect_stop h).trans (if_pos hk)), Console.moved_stop h, if_pos hk]
    · have hzero : c.data = 0 := BitVec.eq_of_toNat_eq (by simpa [Console.data] using hx)
      have hmove : c.tickEffect pin = .move := by
        rw [Console.tickEffect_stop h, if_neg (by omega), hp, hzero]
        rfl
      rw [exec_sampleTick hc he ht hmove, Console.moved_stop h, if_neg (by omega), hk]
    · have hmove : c.tickEffect pin = .move := by
        rw [Console.tickEffect_breakCheck h, hp]
        exact if_pos hk
      rw [exec_sampleTick hc he ht hmove, Console.moved_breakCheck h]
  · intro x c d now hrx ht hb hd
    obtain ⟨hticks, hdetect, -, hsampled⟩ := Console.inFrameAt_ticks (x := x) now hrx ht hb le_rfl
    rw [← hd] at hticks hdetect hsampled
    obtain ⟨hstop, hbits⟩ := hsampled (by decide)
    refine ⟨hstop, hticks, ?_, hdetect, ?_⟩
    · rw [Console.data, hbits]
      exact bitsToNat_byte x
    · rw [Console.tickEffect_stop hstop, hticks]
      rfl

/-! ## Bytes, breaks and the idle close (R71-R74) -/

theorem Console.appended_eq {c : Console} {x : Byte} {framing : Bool} {o : TextRecord}
    (ho : o = (match c.openRecord with
      | none => { stamp := c.detect, bytes := [x], framing := framing }
      | some o => { stamp := o.stamp, bytes := o.bytes ++ [x], framing := o.framing || framing })) :
    o = c.appended x framing := by
  rw [ho]
  unfold Console.appended
  cases c.openRecord <;> rfl

theorem exec_idleClose {s : State} {r : Fin 2} {c : Console} {o : TextRecord} {n : Nat}
    (hc : c = (s.btu.consoles[r]'r.isLt))
    (ho : c.openRecord = some o) (hi : 1 ≤ c.idleClose) (ht : c.idleTimer = some n) (hn : 12500 * c.idleClose ≤ n) :
    exec (.idleClose r) s =
      .next (produce (textRecord r o) (setConsole r { c with openRecord := none, idleTimer := none } s)) := by
  have hdue : c.idleDue = true := by
    have hpos : 0 < c.idleClose := hi
    simp [Console.idleDue, ho, ht, hn, hpos]
  rw [← closeText_some hc ho]
  subst hc
  exact congrArg Host.Outcome.next (if_pos hdue)

/-- Settles O28: a byte by the tick that completes it and the record it joins, a break by tick 160, the idle close by
its timer. -/
theorem consoleBytesBreaksAndIdleClose : Obligations.ConsoleBytesBreaksAndIdleClose := by
  intro s r c hc
  refine ⟨fun pin framing next x o he ht hcase hx ho => ?_, fun he ht hrx hk => ?_,
    fun o n ho hi ht hn => exec_idleClose hc ho hi ht hn⟩
  · have heffect : c.tickEffect pin = .byte framing next := by
      rcases hcase with ⟨hrx, hk, rfl, rfl, rfl⟩ | ⟨hrx, hk, rfl, hd, rfl, rfl⟩ | ⟨hrx, rfl, rfl, rfl⟩
      · rw [Console.tickEffect_stop hrx, if_neg (by omega)]
        rfl
      · rw [Console.tickEffect_stop hrx, if_neg (by omega), if_neg hd]
        rfl
      · rw [Console.tickEffect_breakCheck hrx]
        rfl
    obtain rfl : x = c.data := hx
    rw [exec_consoleByte hc he ht heffect,
      addText_setConsole (c := { c.ticked with rx := next }) _ _ (Console.appended_eq ho)]
    rfl
  · have heffect : c.tickEffect false = .break_ := by
      rw [Console.tickEffect_breakCheck hrx, if_neg (by decide), if_neg (by omega)]
    rw [exec_consoleBreak hc he ht heffect, Console.ticked, hk]

/-! ## BUS CONFIG and CONSOLE CONFIG (R67, R75) -/

section
variable {s : State} {q : Request}

theorem serveBusConfig_range
    (h : 2 ≤ byteAt q.payload 0 ∨ 2 ≤ byteAt q.payload 1 ∨ 4 ≤ byteAt q.payload 2 ∨ byteAt q.payload 3 = 0) :
    serveBusConfig q s = refuse q .range s := by
  unfold serveBusConfig
  split
  · next hg he hw =>
    refine if_pos ?_
    rcases h with h | h | h | h
    · rw [toFin_none h] at hg
      cases hg
    · rw [yesNoAt_none h] at he
      cases he
    · rw [toFin_none h] at hw
      cases hw
    · exact h
  · rfl

theorem serveBusConfig_stored {g : Fin 2} {w : Fin 4} {en : Bool} (hg : byteAt q.payload 0 = g.val)
    (he : yesNoAt q.payload 1 = some en) (hw : byteAt q.payload 2 = w.val) (ht : 1 ≤ byteAt q.payload 3) :
    serveBusConfig q s =
      done q []
        (setBus g ((s.btu.buses[g]'g.isLt).restart en w (byteAt q.payload 3) (s.pins.busClock[g]'g.isLt)
          (s.pins.busData[g]'g.isLt)) s) := by
  unfold serveBusConfig
  rw [toFin_of_eq hg, he, toFin_of_eq hw]
  exact if_neg (by omega)

theorem Bus.restart_eq (b : Bus) (en : Bool) (w : Fin 4) (n : Nat) (clock data : Bool) :
    b.restart en w n clock data =
      { enabled := en, width := w, timeout := n
        clockLine := { accepted := if en then clock else true, filter := .steady }
        dataLine := { accepted := if en then data else true, filter := .steady }
        highClean := false, highBit := false, phase := .idle, bitCount := 0, byte := 0, openRecord := none
        stuckTimer := 0, stuck := false } := by
  cases en <;> rfl

theorem serveConsoleConfig_range (h : 2 ≤ byteAt q.payload 0 ∨ 2 ≤ byteAt q.payload 1 ∨ numAt q.payload 2 2 = 0) :
    serveConsoleConfig q s = refuse q .range s := by
  unfold serveConsoleConfig
  split
  · next hr he =>
    refine if_pos ?_
    rcases h with h | h | h
    · rw [toFin_none h] at hr
      cases hr
    · rw [yesNoAt_none h] at he
      cases he
    · exact h
  · rfl

theorem serveConsoleConfig_stored {r : Fin 2} {en : Bool} (hr : byteAt q.payload 0 = r.val)
    (he : yesNoAt q.payload 1 = some en) (hd : 1 ≤ numAt q.payload 2 2) :
    serveConsoleConfig q s =
      done q []
        (setConsole r
          (((closeText r s).btu.consoles[r]'r.isLt).configured en (numAt q.payload 2 2) (byteAt q.payload 4))
            (closeText r s)) := by
  unfold serveConsoleConfig
  rw [toFin_of_eq hr, he]
  exact if_neg (by omega)

/-- A receiver configured: its open record closed, and nothing of the frame in progress kept. -/
theorem configured_closeText {r : Fin 2} {c d : Console} (hc : c = (s.btu.consoles[r]'r.isLt)) {en : Bool} {n m : Nat}
    (hd : d =
      { enabled := en, divisor := n, idleClose := m, tickCounter := 1, tickDue := false, rx := .waitHigh, detect := 0
        ticks := 0, bits := [], openRecord := none, idleTimer := none }) :
    setConsole r (((closeText r s).btu.consoles[r]'r.isLt).configured en n m) (closeText r s) =
      setConsole r d
        (match c.openRecord with
          | none => s
          | some o => produce (textRecord r o) s) := by
  cases ho : c.openRecord with
  | none =>
    rw [closeText_none (hc ▸ ho), ← hc, hd, Console.configured, ho]
  | some o =>
    rw [closeText_some hc ho, produce_setConsole, setConsole_get, setConsole_setConsole, hd]
    rfl

end

/-- Settles O25: by the payload's ranges, each receiver as its restart leaves it. -/
theorem busAndConsoleConfigRestart : Obligations.BusAndConsoleConfigRestart := by
  refine ⟨fun s q rest h => ?_, fun s q rest h => ?_⟩
  · rw [exec_head (c := .busConfig) rfl h]
    refine ⟨fun hbad => congrArg Host.Outcome.next (serveBusConfig_range hbad), fun g w en hg he hw ht => ?_⟩
    rw [serveBusConfig_stored (s := taken rest s) hg (yesNoAt_of_eq he) hw ht, Bus.restart_eq]
    rfl
  · rw [exec_head (c := .consoleConfig) rfl h]
    refine ⟨fun hbad => congrArg Host.Outcome.next (serveConsoleConfig_range hbad), fun r en hr he hd => ?_⟩
    refine congrArg Host.Outcome.next
      ((serveConsoleConfig_stored (s := taken rest s) hr (yesNoAt_of_eq he) hd).trans ?_)
    exact congrArg (done q [])
      ((configured_closeText (s := taken rest s) (c := (s.btu.consoles[r]'r.isLt)) rfl rfl).trans
      (by cases (s.btu.consoles[r]'r.isLt).openRecord <;> rfl))

end Sys2Proof.Machine
end

section
/-! The drive control unit (chapter 9): line requests, verdicts, presses and deferrals, releases, settings and modes. -/

namespace Sys2Proof.Machine

set_option Elab.async false

open Sys2Proof.Claims

/-! ## Line requests by mode and state (R176, R179, R181) -/

section
variable {s : State} {d : Fin 8} {r : LineRequest}

theorem refuseLine_eq (d : Fin 8) (r : LineRequest) (why : DriveReason) (s : State) :
    refuseLine d r why s =
      respondTo r.ticket why.status []
        (produce (newRecord 31 .driveRefused s.tbu.base (driveKey d r.action why r.width)) s) := rfl

theorem takeLineRequest_hold (h : s.dcu.mode = .hold) : takeLineRequest d r s = refuseLine d r .state s := by
  rw [takeLineRequest, h]

theorem takeLineRequest_safe (h : s.dcu.mode = .safe) : takeLineRequest d r s = refuseLine d r .safe s := by
  rw [takeLineRequest, h]

theorem takeLineRequest_guarded (h : s.dcu.mode = .normal) (hg : (s.dcu.lines[d]'d.isLt).guarded ≠ none) :
    takeLineRequest d r s = refuseLine d r .busy s := by
  rw [takeLineRequest, h]
  exact if_pos (Option.isSome_iff_ne_none.mpr hg)

theorem takeLineRequest_free (h : s.dcu.mode = .normal) (hg : (s.dcu.lines[d]'d.isLt).guarded = none) :
    takeLineRequest d r s = takeInNormal d r s := by
  rw [takeLineRequest, h]
  exact if_neg (by rw [hg]; exact Bool.false_ne_true)

theorem takeInNormal_released (h : (s.dcu.lines[d]'d.isLt).state = .released) :
    takeInNormal d r s = guardStep d r s := by
  unfold takeInNormal
  rw [h]

theorem takeInNormal_asserted_press (h : (s.dcu.lines[d]'d.isLt).state = .asserted) (ha : r.action = .press) :
    takeInNormal d r s = refuseLine d r .state s := by
  unfold takeInNormal
  rw [h, ha]

theorem takeInNormal_asserted_assert (h : (s.dcu.lines[d]'d.isLt).state = .asserted) (ha : r.action = .assert) :
    takeInNormal d r s = respondTo r.ticket .done [] s := by
  unfold takeInNormal
  rw [h, ha]

theorem takeInNormal_pressing_press {w e : Nat} (h : (s.dcu.lines[d]'d.isLt).state = .pressing w e)
    (ha : r.action = .press) :
    takeInNormal d r s = retrigger d r s := by
  unfold takeInNormal
  rw [h, ha]

theorem takeInNormal_pressing_assert {w e : Nat} (h : (s.dcu.lines[d]'d.isLt).state = .pressing w e)
    (ha : r.action = .assert) :
    takeInNormal d r s = refuseLine d r .state s := by
  unfold takeInNormal
  rw [h, ha]

theorem takeInNormal_deferred {p : LineRequest} {e : Nat} (h : (s.dcu.lines[d]'d.isLt).state = .deferred p e) :
    takeInNormal d r s = refuseLine d r .busy s := by
  unfold takeInNormal
  rw [h]

theorem retrigger_press (ha : r.action = .press) :
    retrigger d r s =
      respondTo r.ticket .done (num 2 r.width)
        (setLine d { (s.dcu.lines[d]'d.isLt) with state := .pressing r.width (s.clock + 125000 * r.width) } s) := by
  rw [retrigger, LineRequest.donePayload, if_pos ha]

end

section
variable {s : State} {q : Request} {rest : List Request}

/-- The assertion a LINE SET asks for, and the press a LINE PRESS asks for. -/
def LineRequest.ofAssert (q : Request) : LineRequest := { ticket := some q.ticket, action := .assert, width := 0 }

def LineRequest.ofPress (q : Request) : LineRequest :=
  { ticket := some q.ticket, action := .press, width := clampWidth (numAt q.payload 1 2) }

theorem exec_lineSetAssert_range (h : headIs s q rest codeLineSet) (hl : byteAt q.payload 1 = 0)
    (hd : 8 ≤ byteAt q.payload 0) : exec .lineSetAssert s = .next (refusedAs q rest .range s) := by
  rw [exec_head_when rfl h (modeFits_own 1 0 1 _ hl), serveLineSetAssert, toFin_none hd]
  rfl

theorem exec_lineSetAssert_level (h : headIs s q rest codeLineSet) (hl : 2 ≤ byteAt q.payload 1) :
    exec .lineSetAssert s = .next (refusedAs q rest .range s) := by
  rw [exec_head_when rfl h (modeFits_above 1 0 1 _ hl), serveLineSetAssert]
  cases toFin 8 (byteAt q.payload 0) with
  | none => rfl
  | some d => exact congrArg Host.Outcome.next (if_neg (by omega))

theorem exec_lineSetAssert {d : Fin 8} (h : headIs s q rest codeLineSet) (hl : byteAt q.payload 1 = 0)
    (hd : byteAt q.payload 0 = d.val) :
    exec .lineSetAssert s = .next (takeLineRequest d (.ofAssert q) (taken rest s)) := by
  rw [exec_head_when rfl h (modeFits_own 1 0 1 _ hl), serveLineSetAssert, toFin_of_eq hd]
  exact congrArg Host.Outcome.next (if_pos hl)

theorem exec_linePress_range (h : headIs s q rest codeLinePress) (hd : 8 ≤ byteAt q.payload 0) :
    exec .linePress s = .next (refusedAs q rest .range s) := by
  rw [exec_head rfl h, serveLinePress, toFin_none hd]
  rfl

theorem exec_linePress {d : Fin 8} (h : headIs s q rest codeLinePress) (hd : byteAt q.payload 0 = d.val) :
    exec .linePress s = .next (takeLineRequest d (.ofPress q) (taken rest s)) := by
  rw [exec_head rfl h, serveLinePress, toFin_of_eq hd]
  rfl

end

theorem takeSafeRequest_safe {t : Option Ticket} {s : State} (h : s.dcu.mode = .safe) :
    takeSafeRequest t s = respondTo t .done [] s := if_pos h

theorem takeSafeRequest_guard {t : Option Ticket} {s : State} (h : s.dcu.mode ≠ .safe)
    (ht : ¬ (t = none ∧ none ∈ s.dcu.safeGuard)) :
    takeSafeRequest t s =
      produce { newRecord 31 .driveStart s.tbu.base (driveKey 0 .safe .none 0) with origin := some (originOf t) }
        { s with dcu := { s.dcu with safeGuard := s.dcu.safeGuard ++ [t] } } :=
  (if_neg h).trans (if_neg ht)

/-- Settles O46: one table of `takeLineRequest` for the station's two requests and the sequencer's press. -/
theorem lineRequestsByModeAndState : Obligations.LineRequestsByModeAndState := by
  refine ⟨?_, ?_, fun s => ⟨?_, fun hm hn => takeSafeRequest_guard hm fun h => hn h.2⟩⟩
  · intro s q rest d r c hc
    have hserved : (8 ≤ byteAt q.payload 0 → exec c s = .next (refusedAs q rest .range s)) ∧
        r.ticket = some q.ticket ∧
        (byteAt q.payload 0 = d.val → exec c s = .next (takeLineRequest d r (taken rest s))) := by
      rcases hc with ⟨rfl, hhead, hl, rfl⟩ | ⟨rfl, hhead, rfl⟩
      · exact ⟨exec_lineSetAssert_range hhead hl, rfl, exec_lineSetAssert hhead hl⟩
      · exact ⟨exec_linePress_range hhead, rfl, exec_linePress hhead⟩
    obtain ⟨hrange, hticket, htake⟩ := hserved
    refine ⟨hrange, ?_⟩
    rintro hd u l rfl rfl
    have hrefused (why : DriveReason) (h : takeLineRequest d r (taken rest s) = refuseLine d r why (taken rest s)) :
        exec c s = .next (answered q.ticket why.status []
          (produce (newRecord 31 .driveRefused s.tbu.base (driveKey d r.action why r.width)) (taken rest s))) := by
      rw [htake hd, h, refuseLine_eq, hticket]
      rfl
    refine ⟨fun hm => hrefused .state (takeLineRequest_hold hm), fun hm => hrefused .safe (takeLineRequest_safe hm),
      fun hm hg => hrefused .busy (takeLineRequest_guarded hm hg), fun hm hg => ?_⟩
    have hfree : takeLineRequest d r (taken rest s) = takeInNormal d r (taken rest s) := takeLineRequest_free hm hg
    refine ⟨fun hl => ?_, fun hl ha => ?_, fun hl ha =>
      hrefused .state (hfree.trans (takeInNormal_asserted_press hl ha)),
      fun w e hl ha => hrefused .state (hfree.trans (takeInNormal_pressing_assert hl ha)), fun w e hl ha => ?_,
      fun p e hl => hrefused .busy (hfree.trans (takeInNormal_deferred hl))⟩
    · refine (htake hd).trans
        (congrArg Host.Outcome.next (hfree.trans ((takeInNormal_released (s := taken rest s) hl).trans ?_)))
      rw [guardStep, driveStart, hticket]
      rfl
    · refine (htake hd).trans
        (congrArg Host.Outcome.next (hfree.trans ((takeInNormal_asserted_assert (s := taken rest s) hl ha).trans ?_)))
      rw [hticket]
      rfl
    · refine (htake hd).trans
        (congrArg Host.Outcome.next (hfree.trans ((takeInNormal_pressing_press (s := taken rest s) hl ha).trans ?_)))
      rw [retrigger_press ha, hticket]
      rfl
  · rintro s d w r l rfl rfl
    refine ⟨takeLineRequest_hold, takeLineRequest_safe, takeLineRequest_guarded, fun hm hg => ?_⟩
    have hfree : sequencerPress d w s = takeInNormal d _ s := takeLineRequest_free hm hg
    exact ⟨fun hl => hfree.trans (takeInNormal_released hl), fun hl => hfree.trans (takeInNormal_asserted_press hl rfl),
      fun v e hl => hfree.trans ((takeInNormal_pressing_press hl rfl).trans (retrigger_press rfl)),
      fun p e hl => hfree.trans (takeInNormal_deferred hl)⟩
  · rintro (hm | hn)
    · exact takeSafeRequest_safe hm
    · unfold takeSafeRequest
      split
      · rfl
      · exact if_pos ⟨rfl, hn⟩

/-! ## Partners and gaps (R175, R177) -/

section
variable {u : Dcu} {d p : Fin 8} {gap : Nat}

theorem Dcu.partnerActive_of (hp : u.partner d = some (p, gap)) :
    u.partnerActive d = (u.lines[p]'p.isLt).state.active := by
  rw [Dcu.partnerActive, hp]
  rfl

theorem Dcu.partnerActive_none (hp : u.partner d = none) : u.partnerActive d = false := by
  rw [Dcu.partnerActive, hp]
  rfl

theorem Dcu.gapEnd_within {now : Nat} {m : Moment} (hp : u.partner d = some (p, gap))
    (hm : (u.lines[p]'p.isLt).lastRelease = some m) (hn : now < m.clock + 125000 * gap) :
    u.gapEnd d now = some (m.clock + 125000 * gap) := by
  rw [Dcu.gapEnd, hp, Option.bind_some, hm]
  exact if_pos hn

theorem Dcu.gapEnd_past {now : Nat} (hp : u.partner d = some (p, gap))
    (hm : ∀ m, (u.lines[p]'p.isLt).lastRelease = some m → m.clock + 125000 * gap ≤ now) : u.gapEnd d now = none := by
  rw [Dcu.gapEnd, hp, Option.bind_some]
  cases h : (u.lines[p]'p.isLt).lastRelease with
  | none => rfl
  | some m => exact if_neg (Nat.not_lt.mpr (hm m h))

theorem Dcu.gapEnd_none {now : Nat} (hp : u.partner d = none) : u.gapEnd d now = none := by
  rw [Dcu.gapEnd, hp]
  rfl

/-- A line with neither an active partner nor a gap to keep: the condition of step 5 of R177. -/
theorem Dcu.clear_of_partner {now : Nat}
    (h : u.partner d = none ∨ ∃ p gap, u.partner d = some (p, gap) ∧ (u.lines[p]'p.isLt).state.active = false ∧
      ∀ m, (u.lines[p]'p.isLt).lastRelease = some m → m.clock + 125000 * gap ≤ now) :
    u.partnerActive d = false ∧ u.gapEnd d now = none := by
  rcases h with hp | ⟨p, gap, hp, ha, hm⟩
  · exact ⟨Dcu.partnerActive_none hp, Dcu.gapEnd_none hp⟩
  · exact ⟨(Dcu.partnerActive_of hp).trans ha, Dcu.gapEnd_past hp hm⟩

end

section
variable {s : State} {d : Fin 8} {r : LineRequest}

theorem deferOrAssert_defer {e : Nat} (h : s.dcu.gapEnd d s.clock = some e) :
    deferOrAssert d r s = moveLine d (.deferred r e) s := by
  rw [deferOrAssert, h]

theorem deferOrAssert_assert (h : s.dcu.gapEnd d s.clock = none) :
    deferOrAssert d r s =
      respondTo r.ticket .done (if r.action = .press then num 2 r.width else [])
        (moveLine d (if r.action = .press then .pressing r.width (s.clock + 125000 * r.width) else .asserted)
          (produce (newRecord 31 .driveAssert s.tbu.base (driveKey d r.action .none r.width)) s)) := by
  rw [deferOrAssert, h]
  rfl

end

/-! ## The guard verdict on a line's request (R177) -/

/-- The line's request has left its guard. -/
def unguarded (d : Fin 8) (s : State) : State := setLine d { (s.dcu.lines[d]'d.isLt) with guarded := none } s

section
variable {s : State} {d : Fin 8} {g : Guarded}

theorem unguarded_line (d p : Fin 8) (s : State) :
    ((unguarded d s).dcu.lines[p]'p.isLt).state = (s.dcu.lines[p]'p.isLt).state ∧
      ((unguarded d s).dcu.lines[p]'p.isLt).lastRelease = (s.dcu.lines[p]'p.isLt).lastRelease := by
  by_cases hp : d = p
  · subst hp
    have hself : ((unguarded d s).dcu.lines[d]'d.isLt) = { (s.dcu.lines[d]'d.isLt) with guarded := none } :=
      put_get_self _ _ _
    rw [hself]
    exact ⟨rfl, rfl⟩
  · have hother : ((unguarded d s).dcu.lines[p]'p.isLt) = (s.dcu.lines[p]'p.isLt) := put_get_ne _ _ _ _ hp
    rw [hother]
    exact ⟨rfl, rfl⟩

theorem lineVerdict_withdrawn {refused : Bool} (hg : (s.dcu.lines[d]'d.isLt).guarded = some g)
    (hw : g.withdrawn = true) :
    lineVerdict refused d s = respondTo g.request.ticket .aborted [] (unguarded d s) := by
  rw [lineVerdict, hg]
  exact if_pos hw

theorem lineVerdict_refused (hg : (s.dcu.lines[d]'d.isLt).guarded = some g) (hw : g.withdrawn = false) :
    lineVerdict true d s = refuseLine d g.request .guarded (unguarded d s) := by
  rw [lineVerdict, hg]
  dsimp only
  rw [hw]
  rfl

theorem lineVerdict_released (hg : (s.dcu.lines[d]'d.isLt).guarded = some g) (hw : g.withdrawn = false) :
    lineVerdict false d s =
      match s.dcu.mode with
      | .safe => refuseLine d g.request .safe (unguarded d s)
      | .hold => refuseLine d g.request .state (unguarded d s)
      | .normal =>
        if (unguarded d s).dcu.partnerActive d then refuseLine d g.request .interlock (unguarded d s)
        else deferOrAssert d g.request (unguarded d s) := by
  rw [lineVerdict, hg]
  dsimp only
  rw [hw]
  rfl

theorem lineVerdict_normal (hg : (s.dcu.lines[d]'d.isLt).guarded = some g) (hw : g.withdrawn = false)
    (hm : s.dcu.mode = .normal) :
    lineVerdict false d s =
      if (unguarded d s).dcu.partnerActive d then refuseLine d g.request .interlock (unguarded d s)
      else deferOrAssert d g.request (unguarded d s) := by
  rw [lineVerdict_released hg hw, hm]

end

/-- Settles O47: the verdict judges the line with its request taken out of guard, which leaves pairs, states and last
releases as they were. -/
theorem lineVerdictChecksModeInterlockAndGap : Obligations.LineVerdictChecksModeInterlockAndGap := by
  rintro s d refused g r u l rfl hg rfl hu refusal hrefusal
  obtain rfl : u = unguarded d s := hu
  have hrefuse (why : DriveReason) : refuseLine d g.request why (unguarded d s) = refusal why := (hrefusal why).symm
  have hpartner : (unguarded d s).dcu.partner d = s.dcu.partner d := rfl
  have hline (p : Fin 8) := unguarded_line d p s
  refine ⟨lineVerdict_withdrawn hg, ?_, ?_⟩
  · rintro hw rfl
    exact (lineVerdict_refused hg hw).trans (hrefuse _)
  · rintro hw rfl
    refine ⟨fun hm => ?_, fun hm => ?_, fun hm =>
      ⟨fun p gap hp ha => ?_, fun p gap m hp ha hr hn => ?_, fun hclear => ?_⟩⟩
    · rw [lineVerdict_released hg hw, hm]
      exact hrefuse _
    · rw [lineVerdict_released hg hw, hm]
      exact hrefuse _
    · rw [lineVerdict_normal hg hw hm, Dcu.partnerActive_of (hpartner.trans hp), (hline p).1, ha]
      exact hrefuse _
    · rw [lineVerdict_normal hg hw hm, Dcu.partnerActive_of (hpartner.trans hp), (hline p).1, ha]
      exact deferOrAssert_defer (Dcu.gapEnd_within (hpartner.trans hp) ((hline p).2.trans hr) hn)
    · have hclear' : (unguarded d s).dcu.partnerActive d = false ∧ (unguarded d s).dcu.gapEnd d s.clock = none := by
        refine Dcu.clear_of_partner (hclear.imp (hpartner.trans ·) ?_)
        rintro ⟨p, gap, hp, ha, hm⟩
        exact ⟨p, gap, hpartner.trans hp, (congrArg LineState.active (hline p).1).trans ha, fun m h =>
          hm m ((hline p).2.symm.trans h)⟩
      rw [lineVerdict_normal hg hw hm, hclear'.1]
      exact deferOrAssert_assert hclear'.2

end Sys2Proof.Machine
end

section
/-! The end of a press, the expiry of a deferral, LINE SET release (R178-R180), the settings and the modes (R174, R175,
R184, R185). -/

namespace Sys2Proof.Machine

set_option Elab.async false

open Sys2Proof.Claims

/-! ## Ends and expiries (R178, R179) -/

section
variable {s : State} {d : Fin 8} {r : LineRequest} {e w : Nat}

theorem pressEnd_over (h : (s.dcu.lines[d]'d.isLt).state = .pressing w e) (he : e ≤ s.clock) :
    pressEnd d s =
      moveLine d .released (produce (newRecord 31 .drivePressEnd s.tbu.base (driveKey d .press .none w)) s) := by
  rw [pressEnd, h]
  exact if_pos he

theorem pressEnd_early (h : (s.dcu.lines[d]'d.isLt).state = .pressing w e) (he : s.clock < e) : pressEnd d s = s := by
  rw [pressEnd, h]
  exact if_neg (Nat.not_le.mpr he)

theorem deferralExpiry_early (h : (s.dcu.lines[d]'d.isLt).state = .deferred r e) (he : s.clock < e) :
    deferralExpiry d s = s := by
  rw [deferralExpiry, h]
  exact if_neg (Nat.not_le.mpr he)

theorem deferralExpiry_over (h : (s.dcu.lines[d]'d.isLt).state = .deferred r e) (he : e ≤ s.clock) :
    deferralExpiry d s =
      if s.dcu.partnerActive d then moveLine d .released (refuseLine d r .interlock s) else deferOrAssert d r s := by
  rw [deferralExpiry, h]
  exact if_pos he

/-! ## LINE SET release (R180) -/

theorem releaseLine_active (h : (s.dcu.lines[d]'d.isLt).state.active = true) :
    releaseLine d s =
      moveLine d .released (produce (newRecord 31 .driveRelease s.tbu.base (driveKey d .release .none 0)) s) := by
  unfold releaseLine
  split
  · rfl
  · rfl
  · next h' =>
    rw [h'] at h
    cases h
  · next h' =>
    rw [h'] at h
    cases h

theorem releaseLine_deferred (h : (s.dcu.lines[d]'d.isLt).state = .deferred r e) :
    releaseLine d s = respondTo r.ticket .aborted []
      (setLine d { (s.dcu.lines[d]'d.isLt) with state := .released } s) := by
  have hinactive : (s.dcu.lines[d]'d.isLt).state.active = false := congrArg LineState.active h
  unfold releaseLine
  rw [h]
  dsimp only
  rw [moveLine_same d .released s hinactive, Line.moved_eq, if_neg (by rw [hinactive]; decide)]

theorem releaseLine_released (h : (s.dcu.lines[d]'d.isLt).state = .released) :
    releaseLine d s =
      setLine d
        { (s.dcu.lines[d]'d.isLt) with guarded := (s.dcu.lines[d]'d.isLt).guarded.map fun g =>
          { g with withdrawn := true } } s := by
  unfold releaseLine
  rw [h]

end

section
variable {s : State} {q : Request} {rest : List Request}

theorem exec_lineSetRelease_level (h : headIs s q rest codeLineSet) (hl : 2 ≤ byteAt q.payload 1) :
    exec .lineSetRelease s = .next (refusedAs q rest .range s) := by
  rw [exec_head_when rfl h (modeFits_above 1 1 1 _ hl), serveLineSetRelease]
  cases toFin 8 (byteAt q.payload 0) with
  | none => rfl
  | some d => exact congrArg Host.Outcome.next (if_neg (by omega))

theorem exec_lineSetRelease_range (h : headIs s q rest codeLineSet) (hl : byteAt q.payload 1 = 1)
    (hd : 8 ≤ byteAt q.payload 0) : exec .lineSetRelease s = .next (refusedAs q rest .range s) := by
  rw [exec_head_when rfl h (modeFits_own 1 1 1 _ hl), serveLineSetRelease, toFin_none hd]
  rfl

theorem exec_lineSetRelease {d : Fin 8} (h : headIs s q rest codeLineSet) (hl : byteAt q.payload 1 = 1)
    (hd : byteAt q.payload 0 = d.val) :
    exec .lineSetRelease s =
      .next (match s.dcu.mode with
        | .hold => refuseLine d { ticket := some q.ticket, action := .release, width := 0 } .state (taken rest s)
        | .safe => refuseLine d { ticket := some q.ticket, action := .release, width := 0 } .safe (taken rest s)
        | .normal => done q [] (releaseLine d (taken rest s))) := by
  rw [exec_head_when rfl h (modeFits_own 1 1 1 _ hl), serveLineSetRelease, toFin_of_eq hd]
  exact congrArg Host.Outcome.next (if_pos hl)

theorem exec_lineSetRelease_normal {d : Fin 8} (h : headIs s q rest codeLineSet) (hl : byteAt q.payload 1 = 1)
    (hd : byteAt q.payload 0 = d.val) (hm : s.dcu.mode = .normal) :
    exec .lineSetRelease s = .next (done q [] (releaseLine d (taken rest s))) := by
  rw [exec_lineSetRelease h hl hd, hm]

end

/-- Settles O48: by the line's state, the expiry by partner and gap as the verdict is. -/
theorem pressEndDeferralExpiryAndRelease : Obligations.PressEndDeferralExpiryAndRelease := by
  refine ⟨fun s d => ⟨fun w e h he => congrArg Host.Outcome.next (pressEnd_over h he), fun r e h he => ?_,
    fun w e h he => congrArg Host.Outcome.next (pressEnd_early h he),
    fun r e h he => congrArg Host.Outcome.next (deferralExpiry_early h he)⟩, fun s q rest hhead => ?_⟩
  · have hexec : exec (.deferralExpiry d) s = .next (deferralExpiry d s) := rfl
    refine ⟨fun p gap hp ha => ?_, fun p gap m hp ha hr hn => ?_, fun hclear => ?_⟩
    · rw [hexec, deferralExpiry_over h he, Dcu.partnerActive_of hp, ha]
      rfl
    · rw [hexec, deferralExpiry_over h he, Dcu.partnerActive_of hp, ha]
      exact congrArg Host.Outcome.next (deferOrAssert_defer (Dcu.gapEnd_within hp hr hn))
    · obtain ⟨hactive, hgap⟩ := Dcu.clear_of_partner hclear
      rw [hexec, deferralExpiry_over h he, hactive]
      exact congrArg Host.Outcome.next (deferOrAssert_assert hgap)
  · refine ⟨fun hl => ⟨exec_lineSetRelease_level hhead hl, exec_lineSetAssert_level hhead hl⟩,
      fun hl => ⟨exec_lineSetRelease_range hhead hl, ?_⟩⟩
    rintro d u l hd rfl rfl
    refine ⟨?_, fun hm => ?_⟩
    · rintro why st (⟨hm, rfl, rfl⟩ | ⟨hm, rfl, rfl⟩)
      · rw [exec_lineSetRelease hhead hl hd, hm]
        rfl
      · rw [exec_lineSetRelease hhead hl hd, hm]
        rfl
    · have hexec := exec_lineSetRelease_normal hhead hl hd hm
      refine ⟨fun h => ?_, fun r e h => ?_, fun h => ?_⟩
      · exact hexec.trans (congrArg (fun u => Host.Outcome.next (done q [] u))
          (releaseLine_active (s := taken rest s) h))
      · exact hexec.trans (congrArg (fun u => Host.Outcome.next (done q [] u))
          (releaseLine_deferred (s := taken rest s) h))
      · exact hexec.trans (congrArg (fun u => Host.Outcome.next (done q [] u))
          (releaseLine_released (s := taken rest s) h))

/-! ## LINE CONFIG and PAIR CONFIG (R174, R175) -/

section
variable {s : State} {q : Request} {rest : List Request}

theorem serveLineConfig_range
    (h : 8 ≤ byteAt q.payload 0 ∨ 2 ≤ byteAt q.payload 1 ∨ 1000 < numAt q.payload 3 2) :
    serveLineConfig q s = refuse q .range s := by
  unfold serveLineConfig
  split
  · next hd hl =>
    rcases h with h | h | h
    · rw [toFin_none h] at hd
      cases hd
    · rw [safeLevelAt, yesNoAt_none h] at hl
      cases hl
    · exact if_pos h
  · rfl

theorem serveLineConfig_inRange {d : Fin 8} {level : Bool} (hd : byteAt q.payload 0 = d.val)
    (hl : yesNoAt q.payload 1 = some level) (hn : numAt q.payload 3 2 ≤ 1000) :
    serveLineConfig q s =
      if level && (s.dcu.partner d).any fun p => (s.dcu.lines[p.1]'p.1.isLt).safeAsserted then refuse q .range s
      else if s.dcu.mode = .safe then refuse q .state s
      else
        done q []
          (setLine d
            { (s.dcu.lines[d]'d.isLt) with
              safeAsserted := level, mask := BitVec.ofNat 8 (byteAt q.payload 2), interval := numAt q.payload 3 2 } s)
                := by
  unfold serveLineConfig
  rw [toFin_of_eq hd, safeLevelAt, hl]
  exact if_neg (Nat.not_lt.mpr hn)

theorem Dcu.clash_iff {u : Dcu} {d : Fin 8} {level : Bool} :
    (level && (u.partner d).any fun p => (u.lines[p.1]'p.1.isLt).safeAsserted) = true ↔
      level = true ∧ ∃ p gap, u.partner d = some (p, gap) ∧ (u.lines[p]'p.isLt).safeAsserted = true := by
  rw [Bool.and_eq_true, Option.any_eq_true]
  simp only [Prod.exists]

/-- PAIR CONFIG's fields, each in its range. -/
theorem pairAt_of_eq {n : Fin 4} {a b : Fin 8} (hn : byteAt q.payload 0 = n.val) (ha : byteAt q.payload 2 = a.val)
    (hb : byteAt q.payload 3 = b.val) : pairAt q.payload = some (n, { a, b, gap := byteAt q.payload 4 }) := by
  rw [pairAt, toFin_of_eq hn, toFin_of_eq ha, toFin_of_eq hb]
  rfl

theorem pairAt_none (h : 4 ≤ byteAt q.payload 0 ∨ 8 ≤ byteAt q.payload 2 ∨ 8 ≤ byteAt q.payload 3) :
    pairAt q.payload = none := by
  unfold pairAt
  rcases h with h | h | h
  · rw [toFin_none h]
    rfl
  · rw [toFin_none h]
    cases toFin 4 (byteAt q.payload 0) <;> rfl
  · rw [toFin_none h]
    cases toFin 4 (byteAt q.payload 0) <;> cases toFin 8 (byteAt q.payload 2) <;> rfl

theorem Dcu.pairedElsewhere_iff {u : Dcu} {n : Fin 4} {d : Fin 8} :
    u.pairedElsewhere n d = true ↔ ∃ m : Fin 4, m ≠ n ∧ ∃ p, (u.pairs[m]'m.isLt) = some p ∧ p.has d := by
  simp [Dcu.pairedElsewhere, Option.any_eq_true, Pair.has, -Fin.getElem_fin]

theorem Dcu.pairAllowed_iff {u : Dcu} {n : Fin 4} {p : Pair} :
    u.pairAllowed n p = true ↔
      ¬ (p.a = p.b ∨ (∃ m : Fin 4, m ≠ n ∧ ∃ o, (u.pairs[m]'m.isLt) = some o ∧ (o.has p.a ∨ o.has p.b)) ∨
        ((u.lines[p.a]'p.a.isLt).safeAsserted = true ∧ (u.lines[p.b]'p.b.isLt).safeAsserted = true) ∨
        ((u.lines[p.a]'p.a.isLt).state.active = true ∧ (u.lines[p.b]'p.b.isLt).state.active = true)) := by
  have helsewhere : (∃ m : Fin 4, m ≠ n ∧ ∃ o, (u.pairs[m]'m.isLt) = some o ∧ (o.has p.a ∨ o.has p.b)) ↔
      u.pairedElsewhere n p.a = true ∨ u.pairedElsewhere n p.b = true := by
    simp only [Dcu.pairedElsewhere_iff, ← exists_or, ← and_or_left]
  rw [helsewhere, Dcu.pairAllowed]
  simp only [Bool.and_eq_true, Bool.not_eq_true', ← Bool.not_eq_true, bne_iff_ne, not_or, and_assoc, ne_eq]

theorem servePairConfig_level (h : byteAt q.payload 1 ≠ 0) : servePairConfig q s = refuse q .range s := if_neg h

theorem servePairConfig_none (h : byteAt q.payload 1 = 0) (hp : pairAt q.payload = none) :
    servePairConfig q s = refuse q .range s := by
  rw [servePairConfig, if_pos h, hp]

theorem servePairConfig_some {n : Fin 4} {p : Pair} (h : byteAt q.payload 1 = 0) (hp : pairAt q.payload = some (n, p)) :
    servePairConfig q s = if s.dcu.pairAllowed n p then done q [] (setPair n (some p) s) else refuse q .range s := by
  rw [servePairConfig, if_pos h, hp]

theorem servePairConfigClear_level (h : byteAt q.payload 1 ≠ 1) : servePairConfigClear q s = refuse q .range s :=
  if_neg h

theorem servePairConfigClear_range (h : byteAt q.payload 1 = 1) (hn : 4 ≤ byteAt q.payload 0) :
    servePairConfigClear q s = refuse q .range s := by
  rw [servePairConfigClear, if_pos h, toFin_none hn]

theorem servePairConfigClear_stored {n : Fin 4} (h : byteAt q.payload 1 = 1) (hn : byteAt q.payload 0 = n.val) :
    servePairConfigClear q s = done q [] (setPair n none s) := by
  rw [servePairConfigClear, if_pos h, toFin_of_eq hn]

/-! ## MODE SET (R184, R185) -/

theorem exec_modeSet {c : Instr} {m : DriveMode} (h : headIs s q rest codeModeSet)
    (hc : c = .modeSetNormal ∧ byteAt q.payload 0 = 0 ∧ m = .normal ∨
      c = .modeSetHold ∧ byteAt q.payload 0 = 1 ∧ m = .hold) :
    exec c s = .next (setMode m q (taken rest s)) := by
  rcases hc with ⟨rfl, hb, rfl⟩ | ⟨rfl, hb, rfl⟩
  · rw [exec_head_when rfl h (modeFits_own 0 0 2 _ hb)]
    exact congrArg Host.Outcome.next (if_pos hb)
  · rw [exec_head_when rfl h (modeFits_own 0 1 2 _ hb)]
    exact congrArg Host.Outcome.next (if_pos hb)

theorem exec_modeSetSafe (h : headIs s q rest codeModeSet) (hb : byteAt q.payload 0 = 2) :
    exec .modeSetSafe s = .next (takeSafeRequest (some q.ticket) (taken rest s)) := by
  rw [exec_head_when rfl h (modeFits_own 0 2 2 _ hb)]
  exact congrArg Host.Outcome.next (if_pos hb)

theorem exec_modeSet_range (h : headIs s q rest codeModeSet) (hb : 3 ≤ byteAt q.payload 0) :
    exec .modeSetNormal s = .next (refusedAs q rest .range s) ∧
      exec .modeSetHold s = .next (refusedAs q rest .range s) ∧
      exec .modeSetSafe s = .next (refusedAs q rest .range s) := by
  refine ⟨(exec_head_when rfl h (modeFits_above 0 0 2 _ hb)).trans ?_,
    (exec_head_when rfl h (modeFits_above 0 1 2 _ hb)).trans ?_,
    (exec_head_when rfl h (modeFits_above 0 2 2 _ hb)).trans ?_⟩
  · exact congrArg Host.Outcome.next (if_neg (by omega))
  · exact congrArg Host.Outcome.next (if_neg (by omega))
  · exact congrArg Host.Outcome.next (if_neg (by omega))

theorem safeVerdict_eq {t : Option Ticket} {l : List (Option Ticket)} (h : s.dcu.safeGuard = t :: l) (refused : Bool) :
    safeVerdict refused s =
      if refused then
        respondTo t .guarded []
          (produce (newRecord 31 .driveRefused s.tbu.base (driveKey 0 .safe .guarded 0))
            { s with dcu := { s.dcu with safeGuard := l } })
      else respondTo t .done [] (enterSafe { s with dcu := { s.dcu with safeGuard := l } }) := by
  unfold safeVerdict
  rw [h]
  rfl

end

/-- Settles O49: each request's checks in the order its rule gives them. -/
theorem lineConfigPairConfigAndModeSet : Obligations.LineConfigPairConfigAndModeSet := by
  refine ⟨fun s q rest => ⟨fun hhead => ?_, fun hhead => ?_⟩, fun s q rest hhead =>
    ⟨exec_modeSet_range hhead, ?_, ?_, ?_⟩⟩
  · have hexec := exec_head (c := .lineConfig) rfl hhead
    refine ⟨fun hbad => hexec.trans (congrArg Host.Outcome.next (serveLineConfig_range hbad)), ?_⟩
    rintro d level hd hl hn clash rfl
    have hserved := hexec.trans
      (congrArg Host.Outcome.next (serveLineConfig_inRange (s := taken rest s) hd (yesNoAt_of_eq hl) hn))
    refine ⟨fun hclash => hserved.trans (congrArg Host.Outcome.next (if_pos (Dcu.clash_iff.mpr hclash))),
      fun hclash hm => ?_, fun hclash hm => ?_⟩
    · exact hserved.trans (congrArg Host.Outcome.next ((if_neg (mt Dcu.clash_iff.mp hclash)).trans (if_pos hm)))
    · exact hserved.trans (congrArg Host.Outcome.next ((if_neg (mt Dcu.clash_iff.mp hclash)).trans (if_neg hm)))
  · have hset (hl : byteAt q.payload 1 = 0 ∨ 2 ≤ byteAt q.payload 1) :
        exec .pairConfig s = .next (servePairConfig q (taken rest s)) :=
      exec_head_when rfl hhead (hl.elim (modeFits_own 1 0 1 _) (modeFits_above 1 0 1 _))
    have hclear (hl : byteAt q.payload 1 = 1 ∨ 2 ≤ byteAt q.payload 1) :
        exec .pairConfigClear s = .next (servePairConfigClear q (taken rest s)) :=
      exec_head_when rfl hhead (hl.elim (modeFits_own 1 1 1 _) (modeFits_above 1 1 1 _))
    refine ⟨fun hl => ⟨?_, ?_⟩, fun hl => ⟨fun hn => ?_, fun n hn => ?_⟩, fun hl => ⟨fun hbad => ?_, ?_⟩⟩
    · exact (hset (.inr hl)).trans (congrArg Host.Outcome.next (servePairConfig_level (by omega)))
    · exact (hclear (.inr hl)).trans (congrArg Host.Outcome.next (servePairConfigClear_level (by omega)))
    · exact (hclear (.inl hl)).trans (congrArg Host.Outcome.next (servePairConfigClear_range hl hn))
    · exact (hclear (.inl hl)).trans (congrArg Host.Outcome.next (servePairConfigClear_stored hl hn))
    · exact (hset (.inl hl)).trans (congrArg Host.Outcome.next (servePairConfig_none hl (pairAt_none hbad)))
    · rintro n a b hn ha hb bad rfl
      have hserved := (hset (.inl hl)).trans
        (congrArg Host.Outcome.next (servePairConfig_some (s := taken rest s) hl (pairAt_of_eq hn ha hb)))
      exact ⟨fun hbad => hserved.trans (congrArg Host.Outcome.next (if_neg fun h => Dcu.pairAllowed_iff.mp h hbad)),
        fun hbad => hserved.trans (congrArg Host.Outcome.next (if_pos (Dcu.pairAllowed_iff.mpr hbad)))⟩
  · rintro c m hc held rfl
    rw [exec_modeSet hhead hc]
    refine ⟨fun hm hheld => congrArg Host.Outcome.next (if_pos ⟨hm, (Rmu.tripHeld_iff _).mpr hheld⟩),
      fun h => congrArg Host.Outcome.next (if_neg ?_)⟩
    rintro ⟨hm, hheld⟩
    exact h.elim (absurd hm) (absurd ((Rmu.tripHeld_iff _).mp hheld))
  · intro hb
    rw [exec_modeSetSafe hhead hb]
    refine ⟨fun hm => congrArg Host.Outcome.next (takeSafeRequest_safe (s := taken rest s) hm), fun hm => ?_⟩
    exact congrArg Host.Outcome.next (takeSafeRequest_guard (s := taken rest s) hm fun h => nomatch h.1)
  · rintro t l u hguard rfl
    exact ⟨safeVerdict_eq hguard true, safeVerdict_eq hguard false⟩

end Sys2Proof.Machine
end

section
/-! Records held, admitted and classified (1.3, 5.1, 5.3), and the requests of the match table (5.4-5.6). -/

namespace Sys2Proof.Machine

set_option Elab.async false

open Sys2Proof.Claims

/-! ## A record at its holding FIFO (R7-R9) -/

section
variable {s : State} {r : Record} {h : Hold}

theorem Kind.isGuard_iff (k : Kind) : k.isGuard = true ↔ k = .scanStart ∨ k = .driveStart := by
  cases k <;> decide

theorem Hold.accept_placed (hf : h.fifo.length < 4) : h.accept r = h.place r := if_pos hf

theorem Hold.accept_waiting (hf : 4 ≤ h.fifo.length) (hk : r.kind.isGuard = true) :
    h.accept r = { h with waiting := h.waiting ++ [r] } :=
  (if_neg (Nat.not_lt.mpr hf)).trans (if_pos hk)

theorem Hold.accept_lost (hf : 4 ≤ h.fifo.length) (hk : r.kind.isGuard = false) :
    h.accept r = { h with lost := min 255 (h.lost + 1) } :=
  (if_neg (Nat.not_lt.mpr hf)).trans (if_neg (by rw [hk]; decide))

theorem Hold.beginsLoss_room (hf : h.fifo.length < 4) : h.beginsLoss r = false := by
  simp [Hold.beginsLoss, Config.fifoPlaces, hf]

theorem Hold.beginsLoss_guard (hk : r.kind.isGuard = true) : h.beginsLoss r = false := by
  simp [Hold.beginsLoss, hk]

theorem Hold.beginsLoss_lost (hf : 4 ≤ h.fifo.length) (hk : r.kind.isGuard = false) :
    h.beginsLoss r = true ↔ h.lost = 0 := by
  simp [Hold.beginsLoss, Config.fifoPlaces, hk, hf]

theorem produce_quiet (hh : h = (s.hold[r.source]'r.source.isLt)) (hb : h.beginsLoss r = false) :
    produce r s = { s with hold := put s.hold r.source (h.accept r) } := by
  rw [produce, ← hh, hb]
  rfl

theorem produce_lost (hh : h = (s.hold[r.source]'r.source.isLt)) (hf : 4 ≤ h.fifo.length)
    (hk : r.kind.isGuard = false) :
    produce r s =
      if h.lost = 0 then
        setAlert .recordLoss { s with hold := put s.hold r.source { h with lost := min 255 (h.lost + 1) } }
      else { s with hold := put s.hold r.source { h with lost := min 255 (h.lost + 1) } } := by
  rw [produce, ← hh, Hold.accept_lost hf hk]
  by_cases hl : h.lost = 0
  · rw [if_pos ((Hold.beginsLoss_lost hf hk).mpr hl), if_pos hl]
    rfl
  · rw [if_neg (mt (Hold.beginsLoss_lost hf hk).mp hl), if_neg hl]

end

/-! ## The rotating admission (R79) -/

section
variable {s : State} {i : Nat} {c : Fin 33} {r : Record} {l : List Record}

/-- The first source of the search order with a record is the one admitted. -/
theorem admits_first (hi : i < 33) (hc : c.val = (s.cle.position.val + 1 + i) % 33)
    (hl : (s.hold[c]'c.isLt).fifo = r :: l)
    (hempty : ∀ j < i, ∀ d : Fin 33, d.val = (s.cle.position.val + 1 + j) % 33 → (s.hold[d]'d.isLt).fifo = [])
    (hroom : s.cle.queue.length < 64) : s.admits = some c := by
  rw [State.admits, if_pos hroom, Cle.searchOrder, List.find?_map]
  have hfirst : (List.range 33).find? ((fun i : Fin 33 => !(s.hold[i]'i.isLt).fifo.isEmpty) ∘
      fun i => ⟨(s.cle.position.val + 1 + i) % 33, by omega⟩) = some i := by
    refine List.find?_range_eq_some.mpr ⟨?_, List.mem_range.mpr hi, fun j hj => ?_⟩
    · have hci : c = ⟨(s.cle.position.val + 1 + i) % 33, by omega⟩ := Fin.ext hc
      rw [Function.comp_apply, ← hci, hl]
      rfl
    · rw [Function.comp_apply, hempty j hj _ rfl]
      rfl
  rw [hfirst]
  exact congrArg some (Fin.ext hc.symm)

theorem admitNext_full (h : 64 ≤ s.cle.queue.length) : admitNext s = s := by
  rw [admitNext, State.admits, if_neg (Nat.not_lt.mpr h)]

theorem admitNext_first (h : s.admits = some c) (hl : (s.hold[c]'c.isLt).fifo = r :: l) :
    admitNext s =
      { s with
        cle := { s.cle with queue := s.cle.queue ++ [r], position := c }
        hold := put s.hold c (s.hold[c]'c.isLt).release } := by
  rw [admitNext, h]
  dsimp only
  rw [hl]
  rfl

theorem Hold.release_cons {h : Hold} (hl : h.fifo = r :: l) :
    h.release =
      match h.waiting with
      | [] => { h with fifo := l }
      | g :: gs => { fifo := l ++ [{ g with lost := h.lost }], lost := 0, waiting := gs } := by
  unfold Hold.release
  rw [hl]
  cases h.waiting <;> rfl

end

/-- Settles O29: by the room in the FIFO and the kind; the admission takes the first source of its search order. -/
theorem recordsAreHeldAndAdmitted : Obligations.RecordsAreHeldAndAdmitted := by
  refine ⟨fun s r h hh => ⟨fun hf => ?_, fun hf hk => ?_, ?_⟩, fun s i c r l hi hc hl hempty =>
    ⟨fun hfull => ?_, fun hroom => ?_⟩⟩
  · exact (produce_quiet hh (Hold.beginsLoss_room hf)).trans (by rw [Hold.accept_placed hf, Hold.place])
  · have hguard := (Kind.isGuard_iff _).mpr hk
    rw [produce_quiet hh (Hold.beginsLoss_guard hguard), Hold.accept_waiting hf hguard]
  · rintro hf hscan hdrive u rfl
    refine produce_lost hh hf (Bool.eq_false_iff.mpr fun h => ?_)
    exact ((Kind.isGuard_iff _).mp h).elim hscan hdrive
  · exact congrArg Host.Outcome.next (admitNext_full hfull)
  · exact congrArg Host.Outcome.next ((admitNext_first (admits_first hi hc hl hempty hroom) hl).trans
      (congrArg
        (fun h => { s with cle := { s.cle with queue := s.cle.queue ++ [r], position := c }, hold := put s.hold c h })
        (Hold.release_cons hl)))

/-! ## Classification (R81, R82, R84-R88) -/

section
variable {s : State} {r : Record} {e : MatchEntry}

theorem MatchEntry.accepts_iff :
    e.accepts r = true ↔
      e.valid = true ∧ e.sourceLow ≤ r.source ∧ r.source ≤ e.sourceHigh ∧ (e.kind = none ∨ e.kind = some r.kind) ∧
        r.key &&& e.keyMask = e.keyValue &&& e.keyMask := by
  have hkind : (e.kind.all fun k => k == r.kind) = true ↔ e.kind = none ∨ e.kind = some r.kind := by
    cases e.kind <;> simp
  simp only [MatchEntry.accepts, Bool.and_eq_true, decide_eq_true_eq, beq_iff_eq, hkind, and_assoc]

theorem Bank.decides_some {b : Bank} {i : Fin 64} (hi : (b.entries[i]'i.isLt).accepts r = true)
    (hj : ∀ j < i, ¬ (b.entries[j]'j.isLt).accepts r = true) : b.decides r = some i := by
  rw [Bank.decides, ← Fin.find?_eq_find?_finRange]
  exact Fin.find?_eq_some_iff.mpr ⟨hi, fun j h => Bool.eq_false_iff.mpr (hj j h)⟩

theorem Bank.decides_none {b : Bank} (h : ∀ i : Fin 64, ¬ (b.entries[i]'i.isLt).accepts r = true) :
    b.decides r = none := by
  rw [Bank.decides, ← Fin.find?_eq_find?_finRange]
  exact Fin.find?_eq_none_iff.mpr fun i => Bool.eq_false_iff.mpr (h i)

theorem exec_classifyRecord {rest : List Record} (hq : s.cle.queue = r :: rest) :
    exec .classifyRecord s = .next (classify r (nextRecordCommit { s with cle := { s.cle with queue := rest } })) := by
  refine congrArg Host.Outcome.next ?_
  unfold classifyNext
  rw [hq]

theorem classify_of_decides {d : Option (Fin 64)} {a : Action} (hd : s.cle.active.decides r = d)
    (ha : a = s.cle.active.actionOf d) : classify r s = performActions a r { s with cle := s.cle.countHit d } := by
  subst hd ha
  rfl

end

section
variable {s : State} {a : Action} {r : Record}

theorem driveVerdict_eq (b : Bool) (k : Word) (s : State) :
    driveVerdict b k s =
      if k.extractLsb' 27 2 = 3 then safeVerdict b s else lineVerdict b (k.extractLsb' 29 3).toFin s :=
  if_congr beq_iff_eq rfl rfl

theorem onClassCommit_some {e : Fin 16} (h : a.cls = some e) :
    onClassCommit a s = if s.cle.commit = some (.onClass e) then swapBanks s else s := by
  rw [onClassCommit, h]

end

/-- Settles O30: the deciding entry is the first that accepts the record, and each stage acts by its field. -/
theorem classificationFollowsTheDecidingEntry : Obligations.ClassificationFollowsTheDecidingEntry := by
  refine ⟨?_, fun s a r =>
    ⟨offerStage_none a r s, offerStage_some a r s, verdictStage_plain a r s, verdictStage_scan a r s,
    fun h => (verdictStage_drive a r s h).trans (driveVerdict_eq _ _ _), alertStage_none a s, alertStage_some a s,
    fun h => ⟨classStage_none a r s h, onClassCommit_other a s fun e he => ?_⟩,
    fun e h => ⟨classStage_some a r s e h, onClassCommit_some h⟩⟩⟩
  intro s u r rest a hq hu
  obtain rfl : u = nextRecordCommit { s with cle := { s.cle with queue := rest } } := hu
  refine ⟨fun i hi hj ha => ?_, fun hno ha => ?_⟩
  · refine (exec_classifyRecord hq).trans (congrArg Host.Outcome.next (classify_of_decides (d := some i) ?_ ha))
    exact Bank.decides_some (MatchEntry.accepts_iff.mpr hi) fun j h => mt MatchEntry.accepts_iff.mp (hj j h)
  · refine (exec_classifyRecord hq).trans (congrArg Host.Outcome.next (classify_of_decides (d := none) ?_ ha))
    exact Bank.decides_none fun i => mt MatchEntry.accepts_iff.mp (hno i)
  · rw [h] at he
    cases he

/-! ## The fields of a table write (R89, R90) -/

section
variable {p : List Byte}

theorem toFin_lt {n v : Nat} {i : Fin n} (h : toFin n v = some i) : v < n := by
  rw [toFin_some.mp h]
  exact i.isLt

theorem finOrNoneAt_within {n i : Nat} {x : Option (Fin n)} (h : finOrNoneAt n p i = some x) :
    ¬ (n ≤ byteAt p i ∧ byteAt p i ≠ 255) := by
  rintro ⟨hn, h255⟩
  rw [finOrNoneAt, if_neg h255, toFin_none hn] at h
  cases h

theorem kindOrAnyAt_within {i : Nat} {x : Option Kind} (h : kindOrAnyAt p i = some x) :
    ¬ (29 ≤ byteAt p i ∧ byteAt p i ≠ 255) := by
  rintro ⟨hn, h255⟩
  rw [kindOrAnyAt, if_neg h255, List.getElem?_eq_none hn] at h
  cases h

theorem actionAt_within {i : Nat} {a : Action} (h : actionAt p i = some a) :
    ¬ (4 ≤ byteAt p i ∧ byteAt p i ≠ 255) ∧ ¬ (16 ≤ byteAt p (i + 1) ∧ byteAt p (i + 1) ≠ 255) ∧
      ¬ (4 ≤ byteAt p (i + 2) ∧ byteAt p (i + 2) ≠ 255) := by
  obtain ⟨ring, hring, h⟩ := Option.bind_eq_some_iff.mp h
  obtain ⟨cls, hcls, h⟩ := Option.bind_eq_some_iff.mp h
  obtain ⟨alert, halert, -⟩ := Option.bind_eq_some_iff.mp h
  exact ⟨finOrNoneAt_within hring, finOrNoneAt_within hcls, finOrNoneAt_within halert⟩

theorem entryAt_within {x : Fin 64 × MatchEntry} (h : entryAt p = some x) :
    byteAt p 0 < 64 ∧ byteAt p 2 < 33 ∧ byteAt p 3 < 33 ∧ byteAt p 2 ≤ byteAt p 3 ∧
      ¬ (29 ≤ byteAt p 4 ∧ byteAt p 4 ≠ 255) ∧ ∃ a, actionAt p 5 = some a := by
  obtain ⟨index, hindex, h⟩ := Option.bind_eq_some_iff.mp h
  obtain ⟨valid, hvalid, h⟩ := Option.bind_eq_some_iff.mp h
  obtain ⟨low, hlow, h⟩ := Option.bind_eq_some_iff.mp h
  obtain ⟨high, hhigh, h⟩ := Option.bind_eq_some_iff.mp h
  split at h
  · cases h
  · next hord =>
    obtain ⟨kind, hkind, h⟩ := Option.bind_eq_some_iff.mp h
    obtain ⟨action, haction, -⟩ := Option.bind_eq_some_iff.mp h
    have hle : low.val ≤ high.val := Nat.not_lt.mp hord
    rw [← toFin_some.mp hlow, ← toFin_some.mp hhigh] at hle
    exact ⟨toFin_lt hindex, toFin_lt hlow, toFin_lt hhigh, hle, kindOrAnyAt_within hkind, action, haction⟩

theorem actionAt_none
    (h : (4 ≤ byteAt p 0 ∧ byteAt p 0 ≠ 255) ∨ (16 ≤ byteAt p 1 ∧ byteAt p 1 ≠ 255) ∨
      (4 ≤ byteAt p 2 ∧ byteAt p 2 ≠ 255) ∨ actionAt p 0 = none) : actionAt p 0 = none := by
  cases ha : actionAt p 0 with
  | none => rfl
  | some a =>
    obtain ⟨hring, hcls, halert⟩ := actionAt_within ha
    rw [ha] at h
    rcases h with h | h | h | h
    · exact absurd h hring
    · exact absurd h hcls
    · exact absurd h halert
    · exact h

theorem entryAt_none
    (h : 64 ≤ byteAt p 0 ∨ 33 ≤ byteAt p 2 ∨ 33 ≤ byteAt p 3 ∨ byteAt p 3 < byteAt p 2 ∨
      (29 ≤ byteAt p 4 ∧ byteAt p 4 ≠ 255) ∨ (4 ≤ byteAt p 5 ∧ byteAt p 5 ≠ 255) ∨
      (16 ≤ byteAt p 6 ∧ byteAt p 6 ≠ 255) ∨ (4 ≤ byteAt p 7 ∧ byteAt p 7 ≠ 255) ∨ entryAt p = none) :
    entryAt p = none := by
  cases he : entryAt p with
  | none => rfl
  | some x =>
    obtain ⟨hindex, hlow, hhigh, hord, hkind, a, ha⟩ := entryAt_within he
    obtain ⟨hring, hcls, halert⟩ := actionAt_within ha
    rw [he] at h
    rcases h with h | h | h | h | h | h | h | h | h
    · exact absurd hindex (Nat.not_lt.mpr h)
    · exact absurd hlow (Nat.not_lt.mpr h)
    · exact absurd hhigh (Nat.not_lt.mpr h)
    · exact absurd hord (Nat.not_le.mpr h)
    · exact absurd h hkind
    · exact absurd h hring
    · exact absurd h hcls
    · exact absurd h halert
    · exact h

end

/-! ## Table writes (R89, R90) -/

section
variable {s : State} {q : Request} {direct : Bool}

theorem writeRefusal_busy (h : s.cle.commit ≠ none) : writeRefusal direct s = some .busy :=
  if_pos (Option.isSome_iff_ne_none.mpr h)

theorem writeRefusal_free (h : s.cle.commit = none) :
    writeRefusal direct s = if direct = true ∧ s.tsq.run ≠ .idle then some .state else none :=
  if_neg (by rw [h]; decide)

theorem writeRefusal_shadow (h : s.cle.commit = none) : writeRefusal false s = none :=
  (writeRefusal_free h).trans (if_neg fun h => nomatch h.1)

theorem writeRefusal_running (h : s.cle.commit = none) (hr : s.tsq.run ≠ .idle) :
    writeRefusal true s = some .state := (writeRefusal_free h).trans (if_pos ⟨rfl, hr⟩)

theorem writeRefusal_idle (h : s.cle.commit = none) (hr : s.tsq.run = .idle) : writeRefusal true s = none :=
  (writeRefusal_free h).trans (if_neg fun h => h.2 hr)

theorem serveEntryWrite_range (h : entryAt q.payload = none) : serveEntryWrite q s = refuse q .range s := by
  rw [serveEntryWrite, h]

theorem serveEntryWrite_refused {i : Fin 64} {e : MatchEntry} (h : entryAt q.payload = some (i, e)) {st : Status}
    (hr : writeRefusal false s = some st) : serveEntryWrite q s = refuse q st s := by
  rw [serveEntryWrite, h]
  dsimp only
  rw [hr]

theorem serveEntryWrite_stored {i : Fin 64} {e : MatchEntry} (h : entryAt q.payload = some (i, e))
    (hr : writeRefusal false s = none) :
    serveEntryWrite q s = done q [] { s with cle := { s.cle with shadow := s.cle.shadow.setEntry i e } } := by
  rw [serveEntryWrite, h]
  dsimp only
  rw [hr]

theorem serveEntryWriteDirect_range (h : entryAt q.payload = none) : serveEntryWriteDirect q s = refuse q .range s := by
  rw [serveEntryWriteDirect, h]

theorem serveEntryWriteDirect_refused {i : Fin 64} {e : MatchEntry} (h : entryAt q.payload = some (i, e)) {st : Status}
    (hr : writeRefusal true s = some st) : serveEntryWriteDirect q s = refuse q st s := by
  rw [serveEntryWriteDirect, h]
  dsimp only
  rw [hr]

theorem serveEntryWriteDirect_stored {i : Fin 64} {e : MatchEntry} (h : entryAt q.payload = some (i, e))
    (hr : writeRefusal true s = none) :
    serveEntryWriteDirect q s = done q [] { s with cle := s.cle.writeActive i e } := by
  rw [serveEntryWriteDirect, h]
  dsimp only
  rw [hr]

theorem serveDefaultWrite_range (h : actionAt q.payload 0 = none) : serveDefaultWrite q s = refuse q .range s := by
  rw [serveDefaultWrite, h]

theorem serveDefaultWrite_refused {a : Action} (h : actionAt q.payload 0 = some a) {st : Status}
    (hr : writeRefusal false s = some st) : serveDefaultWrite q s = refuse q st s := by
  rw [serveDefaultWrite, h]
  dsimp only
  rw [hr]

theorem serveDefaultWrite_stored {a : Action} (h : actionAt q.payload 0 = some a)
    (hr : writeRefusal false s = none) :
    serveDefaultWrite q s = done q [] { s with cle := { s.cle with shadow := { s.cle.shadow with dflt := a } } } := by
  rw [serveDefaultWrite, h]
  dsimp only
  rw [hr]

theorem serveDefaultWriteDirect_range (h : actionAt q.payload 0 = none) :
    serveDefaultWriteDirect q s = refuse q .range s := by
  rw [serveDefaultWriteDirect, h]

theorem serveDefaultWriteDirect_refused {a : Action} (h : actionAt q.payload 0 = some a) {st : Status}
    (hr : writeRefusal true s = some st) : serveDefaultWriteDirect q s = refuse q st s := by
  rw [serveDefaultWriteDirect, h]
  dsimp only
  rw [hr]

theorem serveDefaultWriteDirect_stored {a : Action} (h : actionAt q.payload 0 = some a)
    (hr : writeRefusal true s = none) :
    serveDefaultWriteDirect q s = done q [] { s with cle := s.cle.writeActiveDefault a } := by
  rw [serveDefaultWriteDirect, h]
  dsimp only
  rw [hr]

end

/-- Settles O31: the fields decide first, then the pending commit, then for a direct write the run state. -/
theorem tableWrites : Obligations.TableWrites := by
  refine fun s q rest => ⟨?_, ?_⟩
  · rintro c code (⟨rfl, rfl⟩ | ⟨rfl, rfl⟩) hhead
    · have hexec := exec_head (c := .entryWrite) rfl hhead
      refine ⟨fun h => hexec.trans (congrArg Host.Outcome.next (serveEntryWrite_range (entryAt_none h))), fun i e he =>
        ⟨fun hc => ?_, fun hc => ⟨fun _ => ?_, fun _ h => (nomatch h), fun _ h => (nomatch h)⟩⟩⟩
      · exact hexec.trans (congrArg Host.Outcome.next
          (serveEntryWrite_refused (s := taken rest s) he (writeRefusal_busy hc)))
      · exact hexec.trans (congrArg Host.Outcome.next
          (serveEntryWrite_stored (s := taken rest s) he (writeRefusal_shadow hc)))
    · have hexec := exec_head (c := .entryWriteDirect) rfl hhead
      refine ⟨fun h => hexec.trans (congrArg Host.Outcome.next (serveEntryWriteDirect_range (entryAt_none h))),
        fun i e he =>
        ⟨fun hc => ?_, fun hc => ⟨fun h => (nomatch h), fun hr _ => ?_, fun hr _ => ?_⟩⟩⟩
      · exact hexec.trans
          (congrArg Host.Outcome.next (serveEntryWriteDirect_refused (s := taken rest s) he (writeRefusal_busy hc)))
      · exact hexec.trans
          (congrArg Host.Outcome.next
            (serveEntryWriteDirect_refused (s := taken rest s) he (writeRefusal_running hc hr)))
      · exact hexec.trans
          (congrArg Host.Outcome.next (serveEntryWriteDirect_stored (s := taken rest s) he (writeRefusal_idle hc hr)))
  · rintro c code (⟨rfl, rfl⟩ | ⟨rfl, rfl⟩) hhead
    · have hexec := exec_head (c := .defaultWrite) rfl hhead
      refine ⟨fun h => hexec.trans (congrArg Host.Outcome.next (serveDefaultWrite_range (actionAt_none h))), fun a ha =>
        ⟨fun hc => ?_, fun hc _ => ?_, fun _ _ h => (nomatch h), fun _ _ h => (nomatch h)⟩⟩
      · exact hexec.trans (congrArg Host.Outcome.next
          (serveDefaultWrite_refused (s := taken rest s) ha (writeRefusal_busy hc)))
      · exact hexec.trans
          (congrArg Host.Outcome.next (serveDefaultWrite_stored (s := taken rest s) ha (writeRefusal_shadow hc)))
    · have hexec := exec_head (c := .defaultWriteDirect) rfl hhead
      refine ⟨fun h => hexec.trans (congrArg Host.Outcome.next (serveDefaultWriteDirect_range (actionAt_none h))),
        fun a ha =>
        ⟨fun hc => ?_, fun _ h => (nomatch h), fun hc hr _ => ?_, fun hc hr _ => ?_⟩⟩
      · exact hexec.trans
          (congrArg Host.Outcome.next (serveDefaultWriteDirect_refused (s := taken rest s) ha (writeRefusal_busy hc)))
      · exact hexec.trans
          (congrArg Host.Outcome.next
            (serveDefaultWriteDirect_refused (s := taken rest s) ha (writeRefusal_running hc hr)))
      · exact hexec.trans
          (congrArg Host.Outcome.next (serveDefaultWriteDirect_stored (s := taken rest s) ha (writeRefusal_idle hc hr)))

/-! ## COMMIT and COMMIT CANCEL (R92, R93, R96, R97) -/

section
variable {s : State} {q : Request}

theorem commitAt_none (h : 3 ≤ byteAt q.payload 0 ∨ byteAt q.payload 0 = 2 ∧ 16 ≤ byteAt q.payload 1) :
    commitAt q.payload = none := by
  unfold commitAt
  rcases h with h | ⟨h, hn⟩
  · split
    · omega
    · omega
    · omega
    · rfl
  · rw [h, toFin_none hn]
    rfl

theorem commitAt_some {p : CommitPoint}
    (h : byteAt q.payload 0 = 0 ∧ p = .nextRecord ∨ byteAt q.payload 0 = 1 ∧ p = .nextArm ∨
      byteAt q.payload 0 = 2 ∧ ∃ e : Fin 16, byteAt q.payload 1 = e.val ∧ p = .onClass e) :
    commitAt q.payload = some p := by
  unfold commitAt
  rcases h with ⟨h, rfl⟩ | ⟨h, rfl⟩ | ⟨h, e, he, rfl⟩
  · rw [h]
    rfl
  · rw [h]
    rfl
  · rw [h, toFin_of_eq he]
    rfl

theorem serveCommit_range (h : commitAt q.payload = none) : serveCommit q s = refuse q .range s := by
  rw [serveCommit, h]

theorem serveCommit_busy {p : CommitPoint} (h : commitAt q.payload = some p) (hc : s.cle.commit ≠ none) :
    serveCommit q s = refuse q .busy s := by
  rw [serveCommit, h]
  exact if_pos (Option.isSome_iff_ne_none.mpr hc)

theorem serveCommit_pending {p : CommitPoint} (h : commitAt q.payload = some p) (hc : s.cle.commit = none) :
    serveCommit q s =
      done q []
        (if p = .nextRecord ∧ s.cle.queue = [] then swapBanks { s with cle := { s.cle with commit := some p } }
        else { s with cle := { s.cle with commit := some p } }) := by
  rw [serveCommit, h]
  exact if_neg (by rw [hc]; decide)

end

/-- Settles O32: the point's field, then the pending commit; a swap clears every hit count. -/
theorem commitCancelAndSwap : Obligations.CommitCancelAndSwap := by
  refine ⟨fun s q rest => ⟨fun hhead => ?_, fun hhead => ?_⟩, fun s =>
    ⟨Vector.replicate 65 0, rfl, fun i => by simp, ?_⟩⟩
  · have hexec := exec_head (c := .commit) rfl hhead
    refine ⟨fun h => hexec.trans (congrArg Host.Outcome.next (serveCommit_range (commitAt_none h))), fun p hp =>
      ⟨?_, ?_⟩⟩
    · exact fun hc => hexec.trans
        (congrArg Host.Outcome.next (serveCommit_busy (s := taken rest s) (commitAt_some hp) hc))
    · rintro hc u rfl
      exact hexec.trans (congrArg Host.Outcome.next (serveCommit_pending (s := taken rest s) (commitAt_some hp) hc))
  · have hexec := exec_head (c := .commitCancel) rfl hhead
    refine ⟨fun hc => hexec.trans (congrArg Host.Outcome.next (if_neg ?_)),
      fun hc => hexec.trans (congrArg Host.Outcome.next (if_pos (Option.isSome_iff_ne_none.mpr hc)))⟩
    rw [show (taken rest s).cle.commit = none from hc]
    decide
  · exact alerting_setAlert_self .tableSwap _

end Sys2Proof.Machine
end

section
/-! The trigger sequencer's requests, its classes and ticks, and its branches (6.3-6.5). -/

namespace Sys2Proof.Machine

set_option Elab.async false

open Sys2Proof.Claims

/-! ## ARM, STOP and TRIGGER NOW (R94, R116-R118, R139, R140) -/

/-- The counters and the rings a STOP leaves, by the run state. -/
def Tsq.stoppedCounters (u : Tsq) : Vector Counter 4 :=
  match u.run with
  | .armed => u.stopCounters.counters
  | _ => u.counters

def Cst.stoppedRings (c : Cst) (run : RunState) : Vector Ring 4 :=
  match run with
  | .armed => mapAll (Ring.halt false) c.rings
  | .triggered => mapAll (Ring.halt true) c.rings
  | _ => c.rings

section
variable {s : State} {q : Request}

theorem stopRun_eq (s : State) :
    stopRun s =
      { s with
        tsq := { s.tsq with run := .idle, counters := s.tsq.stoppedCounters }
        cst := { s.cst with rings := s.cst.stoppedRings s.tsq.run } } := by
  have hidle (u : Tsq) (h : u.run = .idle) : u = { u with run := .idle, counters := u.counters } := by rw [← h]
  unfold stopRun Tsq.stoppedCounters Cst.stoppedRings
  cases h : s.tsq.run with
  | idle => exact congrArg (fun u => { s with tsq := u }) (hidle s.tsq h)
  | armed => rfl
  | triggered => rfl
  | done => rfl

theorem Tsq.stoppedCounters_get (u : Tsq) (c : Fin 4) :
    (u.stoppedCounters[c]'c.isLt) = if u.run = .armed then { (u.counters[c]'c.isLt) with running := false }
      else (u.counters[c]'c.isLt) := by
  unfold Tsq.stoppedCounters
  cases u.run with
  | armed => exact mapAll_get _ _ c
  | idle => rfl
  | triggered => rfl
  | done => rfl

theorem Cst.stoppedRings_get (c : Cst) (run : RunState) (i : Fin 4) :
    ((c.stoppedRings run)[i]'i.isLt) =
      if (c.rings[i]'i.isLt).mode = .window ∧
          (((run = .armed ∨ run = .triggered) ∧ (c.rings[i]'i.isLt).state = .running) ∨
            (run = .triggered ∧ (c.rings[i]'i.isLt).state = .post)) then
        { (c.rings[i]'i.isLt) with state := .frozen, stopped := true }
      else (c.rings[i]'i.isLt) := by
  cases run with
  | idle => exact (if_neg (by simp)).symm
  | done => exact (if_neg (by simp)).symm
  | armed =>
    refine (mapAll_get _ _ i).trans (if_congr ?_ rfl rfl)
    simp
  | triggered =>
    refine (mapAll_get _ _ i).trans (if_congr ?_ rfl rfl)
    simp

theorem serveArm_busy (h : s.tsq.run = .armed ∨ s.tsq.run = .triggered) : serveArm q s = refuse q .state s := by
  refine if_neg ?_
  rcases h with h | h <;> rw [h] <;> decide

theorem serveArm_arms (h : s.tsq.run = .idle ∨ s.tsq.run = .done) {u : State}
    (hu : u = if s.cle.commit = some .nextArm then swapBanks s else s) :
    serveArm q s =
      done q [] { u with tsq := u.tsq.armed, cst := { u.cst with rings := mapAll Ring.arm u.cst.rings } } := by
  subst hu
  exact if_pos h

theorem serveTriggerNow_refused (h : s.tsq.run ≠ .armed) : serveTriggerNow q s = refuse q .state s := if_neg h

theorem serveTriggerNow_armed (h : s.tsq.run = .armed) :
    serveTriggerNow q s =
      done q [] (triggerRun s.tbu.base { level := s.tsq.level, branch := none, cls := none } s) := if_pos h

/-- A commit swapped at ARM leaves sequencer and rings. -/
theorem swapIf_parts {p : Prop} [Decidable p] :
    (if p then swapBanks s else s).tsq = s.tsq ∧ (if p then swapBanks s else s).cst = s.cst := by
  split
  · exact ⟨rfl, rfl⟩
  · exact ⟨rfl, rfl⟩

end

/-- Settles O34: by the run state, counters and rings member by member. -/
theorem armStopAndTriggerNow : Obligations.ArmStopAndTriggerNow := by
  refine fun s q rest => ⟨fun hhead => ?_, fun hhead => ?_, fun hhead => ?_⟩
  · have hexec := exec_head (c := .arm) rfl hhead
    refine ⟨fun h => hexec.trans (congrArg Host.Outcome.next (serveArm_busy (s := taken rest s) h)), ?_⟩
    rintro h u hu
    obtain ⟨htsq, hcst⟩ : u.tsq = s.tsq ∧ u.cst = s.cst := by
      rw [hu]
      exact swapIf_parts
    refine ⟨s.tsq.armed.counters, mapAll Ring.arm s.cst.rings, ?_, fun c => mapAll_get _ _ c, fun i => mapAll_get _ _ i⟩
    refine hexec.trans (congrArg Host.Outcome.next ((serveArm_arms (s := taken rest s) h hu).trans ?_))
    rw [htsq, hcst]
    rfl
  · refine ⟨s.tsq.stoppedCounters, s.cst.stoppedRings s.tsq.run, ?_, s.tsq.stoppedCounters_get,
      s.cst.stoppedRings_get s.tsq.run⟩
    exact (exec_head (c := .stop) rfl hhead).trans
      (congrArg (fun u => Host.Outcome.next (done q [] u)) (stopRun_eq (taken rest s)))
  · have hexec := exec_head (c := .triggerNow) rfl hhead
    exact ⟨fun h => hexec.trans (congrArg Host.Outcome.next (serveTriggerNow_refused (s := taken rest s) h)),
      fun h => hexec.trans (congrArg Host.Outcome.next (serveTriggerNow_armed (s := taken rest s) h))⟩

/-! ## Classes and ticks (R101, R109, R110, R112) -/

section
variable {u : Tsq} {src : CounterSource} {counters : Vector Counter 4}

theorem Counter.counts_iff (x : Counter) (src : CounterSource) :
    x.counts src = true ↔ x.running = true ∧ x.source = src := by
  rw [Counter.counts, Bool.and_eq_true, beq_iff_eq]

theorem Tsq.increment_of_get
    (h : ∀ c : Fin 4, (counters[c]'c.isLt) =
      if (u.counters[c]'c.isLt).running = true ∧ (u.counters[c]'c.isLt).source = src then
        { (u.counters[c]'c.isLt) with count := (u.counters[c]'c.isLt).count + 1 }
      else (u.counters[c]'c.isLt)) : u.increment src = { u with counters := counters } := by
  have hcounters : mapAll (fun x => if x.counts src then { x with count := x.count + 1 } else x) u.counters =
    counters :=
    vec_ext fun c => (mapAll_get _ _ c).trans ((if_congr (Counter.counts_iff _ _) rfl rfl).trans (h c).symm)
  rw [Tsq.increment, hcounters]

theorem Tsq.matching_of_get
    (h : ∀ c : Fin 4, (counters[c]'c.isLt) =
      if (u.counters[c]'c.isLt).running = true ∧ (u.counters[c]'c.isLt).source = src then
        { (u.counters[c]'c.isLt) with count := (u.counters[c]'c.isLt).count + 1 }
      else (u.counters[c]'c.isLt)) :
    u.matching src =
      (List.finRange 4).filter fun c =>
        (u.counters[c]'c.isLt).running && (u.counters[c]'c.isLt).source == src && (counters[c]'c.isLt).count ==
          (counters[c]'c.isLt).compare := by
  refine List.filter_congr fun c _ => ?_
  by_cases hc : (u.counters[c]'c.isLt).running = true ∧ (u.counters[c]'c.isLt).source = src
  · rw [h c, if_pos hc, Counter.counts]
  · rw [show ((u.counters[c]'c.isLt).running && (u.counters[c]'c.isLt).source == src) = false from
      Bool.eq_false_iff.mpr (mt (Counter.counts_iff _ _).mp hc)]
    exact congrArg (· && _) (Bool.eq_false_iff.mpr (mt (Counter.counts_iff _ _).mp hc))

theorem Counter.complete_eq (x : Counter) :
    x.complete =
      { x with count := 0, compare := (match x.staged with | some v => v | none => x.compare), staged := none } := by
  unfold Counter.complete
  cases x.staged <;> rfl

theorem tick_due {s : State} (h : s.tbu.tickDue = true) :
    tick s = sequencerTick { s with tbu := { s.tbu with tickDue := false } } := if_pos h

end

/-- Settles O36: what counts at a source is what the statement's counters say. -/
theorem classesAndTicksCountAndMatch : Obligations.ClassesAndTicksCountAndMatch := by
  intro s src counters noted hcounters hnoted
  have hinc := Tsq.increment_of_get hcounters
  have hmatching : s.tsq.matching src = noted := (Tsq.matching_of_get hcounters).trans hnoted.symm
  refine ⟨?_, ?_, ?_⟩
  · rintro e v rfl
    rw [← hinc, ← hmatching]
    rfl
  · rintro rfl hdue
    refine congrArg Host.Outcome.next ((tick_due hdue).trans ?_)
    rw [← hinc, ← hmatching]
    rfl
  · rintro c v x u rfl rfl
    rw [handleMatch, completeMatch, Counter.complete_eq]
    rfl

/-! ## Branches (R103-R108) -/

theorem Branch.not_accepts {b : Branch} {k : Fin 20} (h : ¬ (b.enabled = true ∧ b.cls = k)) : b.accepts k = false :=
  Bool.eq_false_iff.mpr (mt (b.accepts_iff k).mp h)

theorem branchActions_eq (l : List SeqAction) (s : State) :
    forEach l branchAction s = l.foldl (fun t x => branchAction x t) s := rfl

/-- Settles O8: branch A before branch B, and a taken branch's next after its actions. -/
theorem branchesAreTakenInOrder : Obligations.BranchesAreTakenInOrder := by
  rintro s k v l rfl
  refine ⟨fun he hc => compareClass_a k v s ((Branch.accepts_iff _ _).mpr ⟨he, hc⟩),
    fun ha he hc => compareClass_b k v s (Branch.not_accepts ha) ((Branch.accepts_iff _ _).mpr ⟨he, hc⟩),
    fun ha hb => compareClass_none k v s (Branch.not_accepts ha) (Branch.not_accepts hb), ?_, ?_,
    fun n => rfl, fun d w => rfl, rfl, rfl⟩
  · intro b cause u hu
    obtain rfl : u = forEach b.actions branchAction s := hu.trans (branchActions_eq _ _).symm
    exact ⟨fun n => takeBranch_level b cause v s n, takeBranch_stay b cause v s, takeBranch_trigger b cause v s⟩
  · rintro c x rfl
    exact ⟨rfl, rfl, rfl⟩

/-! ## LEVEL WRITE, COUNTER CONFIG and COMPARE WRITE (R102, R113, R114) -/

section
variable {p : List Byte} {i : Nat}

theorem flagAt_none (h : 2 ≤ byteAt p i) : flagAt p i = none := by
  unfold flagAt
  split
  · omega
  · omega
  · rfl

theorem flagAt_of_eq {b : Bool} (h : byteAt p i = if b then 1 else 0) : flagAt p i = some b := by
  rw [flagAt, h]
  cases b <;> rfl

theorem nextAt_lt {n : Next} (h : nextAt p i = some n) : byteAt p i < 10 := by
  unfold nextAt at h
  split at h
  · omega
  · omega
  · obtain ⟨l, hl, -⟩ := Option.map_eq_some_iff.mp h
    exact Nat.lt_trans (toFin_lt hl) (by decide)

theorem seqActionsAt_lt {l : List SeqAction} (h : seqActionsAt p i = some l) : byteAt p i < 3 := by
  unfold seqActionsAt at h
  split at h
  · omega
  · omega
  · omega
  · cases h

theorem branchAt_within {b : Branch} (h : branchAt p i = some b) :
    byteAt p (i + 1) < 20 ∧ byteAt p (i + 2) < 10 ∧ byteAt p (i + 3) < 3 := by
  obtain ⟨enabled, henabled, h⟩ := Option.bind_eq_some_iff.mp h
  obtain ⟨cls, hcls, h⟩ := Option.bind_eq_some_iff.mp h
  obtain ⟨next, hnext, h⟩ := Option.bind_eq_some_iff.mp h
  obtain ⟨actions, hactions, -⟩ := Option.bind_eq_some_iff.mp h
  exact ⟨toFin_lt hcls, nextAt_lt hnext, seqActionsAt_lt hactions⟩

theorem levelAt_within {x : Fin 8 × Level} (h : levelAt p = some x) :
    byteAt p 0 < 8 ∧ (byteAt p 2 < 20 ∧ byteAt p 3 < 10 ∧ byteAt p 4 < 3) ∧
      byteAt p 14 < 20 ∧ byteAt p 15 < 10 ∧ byteAt p 16 < 3 := by
  obtain ⟨l, hl, h⟩ := Option.bind_eq_some_iff.mp h
  obtain ⟨a, ha, h⟩ := Option.bind_eq_some_iff.mp h
  obtain ⟨b, hb, -⟩ := Option.bind_eq_some_iff.mp h
  exact ⟨toFin_lt hl, branchAt_within ha, branchAt_within hb⟩

theorem levelAt_none
    (h : 8 ≤ byteAt p 0 ∨ 20 ≤ byteAt p 2 ∨ 10 ≤ byteAt p 3 ∨ 3 ≤ byteAt p 4 ∨ 20 ≤ byteAt p 14 ∨
      10 ≤ byteAt p 15 ∨ 3 ≤ byteAt p 16 ∨ levelAt p = none) : levelAt p = none := by
  cases hx : levelAt p with
  | none => rfl
  | some x =>
    have hwithin := levelAt_within hx
    rw [hx] at h
    simp only [reduceCtorEq, or_false] at h
    omega

theorem counterSourceAt_none (h : 17 ≤ byteAt p i) : counterSourceAt p i = none := by
  rw [counterSourceAt, if_neg (by omega), toFin_none (by omega)]
  rfl

theorem counterSourceAt_some {src : CounterSource}
    (h : byteAt p i = 16 ∧ src = .tick ∨ ∃ e : Fin 16, byteAt p i = e.val ∧ src = .cls e) :
    counterSourceAt p i = some src := by
  rcases h with ⟨h, rfl⟩ | ⟨e, h, rfl⟩
  · exact if_pos h
  · rw [counterSourceAt, if_neg (by omega), toFin_of_eq h]
    rfl

theorem writeModeAt_none (h : 2 ≤ byteAt p i) : writeModeAt p i = none := by
  unfold writeModeAt
  split
  · omega
  · omega
  · rfl

theorem counterConfigAt_none {x : Counter} (h : 17 ≤ byteAt p 1 ∨ 2 ≤ byteAt p 2 ∨ 2 ≤ byteAt p 3) :
    counterConfigAt p x = none := by
  unfold counterConfigAt
  rcases h with h | h | h
  · rw [counterSourceAt_none h]
    rfl
  · rw [flagAt_none h]
    cases counterSourceAt p 1 <;> rfl
  · rw [writeModeAt_none h]
    cases counterSourceAt p 1 with
    | none => rfl
    | some src => cases flagAt p 2 <;> rfl

theorem counterConfigAt_some {x : Counter} {src : CounterSource} {run : Bool} {w : WriteMode}
    (hs : counterSourceAt p 1 = some src) (hr : flagAt p 2 = some run) (hw : writeModeAt p 3 = some w) :
    counterConfigAt p x =
      some { x with source := src, runAtArm := run, writeMode := w, staged := if w = .direct then none
        else x.staged } := by
  rw [counterConfigAt, hs, hr, hw]
  rfl

end

section
variable {s : State} {q : Request}

theorem Tsq.busy_of {u : Tsq} (h : u.run = .armed ∨ u.run = .triggered) : u.busy = true := by
  rw [Tsq.busy]
  rcases h with h | h <;> rw [h] <;> rfl

theorem Tsq.not_busy_of {u : Tsq} (h : u.run = .idle ∨ u.run = .done) : u.busy = false := by
  rw [Tsq.busy]
  rcases h with h | h <;> rw [h] <;> rfl

theorem serveLevelWrite_range (h : levelAt q.payload = none) : serveLevelWrite q s = refuse q .range s := by
  rw [serveLevelWrite, h]

theorem serveLevelWrite_eq {l : Fin 8} {x : Level} (h : levelAt q.payload = some (l, x)) :
    serveLevelWrite q s =
      if s.tsq.busy then refuse q .state s
      else done q [] { s with tsq := { s.tsq with levels := put s.tsq.levels l x } } := by
  rw [serveLevelWrite, h]

theorem serveCounterConfig_range
    (h : 4 ≤ byteAt q.payload 0 ∨ 17 ≤ byteAt q.payload 1 ∨ 2 ≤ byteAt q.payload 2 ∨ 2 ≤ byteAt q.payload 3) :
    serveCounterConfig q s = refuse q .range s := by
  unfold serveCounterConfig
  split
  · rfl
  · next hc =>
    rcases h with h | h
    · rw [toFin_none h] at hc
      cases hc
    · rw [counterConfigAt_none h]

theorem serveCounterConfig_eq {c : Fin 4} {x : Counter} (hc : byteAt q.payload 0 = c.val)
    (h : counterConfigAt q.payload (s.tsq.counters[c]'c.isLt) = some x) :
    serveCounterConfig q s =
      if s.tsq.busy then refuse q .state s else done q [] { s with tsq := s.tsq.setCounter c x } := by
  rw [serveCounterConfig, toFin_of_eq hc]
  dsimp only
  rw [h]

theorem serveCompareWrite_range (h : 4 ≤ byteAt q.payload 0 ∨ BitVec.ofNat 32 (numAt q.payload 1 4) = 0) :
    serveCompareWrite q s = refuse q .range s := by
  unfold serveCompareWrite
  split
  · rfl
  · next hc =>
    rcases h with h | h
    · rw [toFin_none h] at hc
      cases hc
    · exact if_pos h

theorem serveCompareWrite_stored {c : Fin 4} {v : Word} (hc : byteAt q.payload 0 = c.val)
    (hv : v = BitVec.ofNat 32 (numAt q.payload 1 4)) (h0 : v ≠ 0) :
    serveCompareWrite q s =
      done q ((s.tsq.counters[c]'c.isLt).writeCompare v).compareBytes
        { s with tsq := s.tsq.setCounter c ((s.tsq.counters[c]'c.isLt).writeCompare v) } := by
  subst hv
  rw [serveCompareWrite, toFin_of_eq hc]
  exact if_neg h0

theorem Counter.compareBytes_eq (x : Counter) :
    x.compareBytes =
      num 4 x.compare.toNat ++
        (match x.staged with
          | none => [0, 0, 0, 0, 0]
          | some w => 1 :: num 4 w.toNat) := by
  rw [Counter.compareBytes]
  cases x.staged <;> rfl

end

/-- Settles O37: the fields decide first, then the run state. -/
theorem sequencerSettings : Obligations.SequencerSettings := by
  refine fun s q rest => ⟨fun hhead => ?_, fun hhead => ?_, fun hhead => ?_⟩
  · have hexec := exec_head (c := .levelWrite) rfl hhead
    have hrange (h : levelAt q.payload = none) : exec .levelWrite s = .next (refusedAs q rest .range s) :=
      hexec.trans (congrArg Host.Outcome.next (serveLevelWrite_range h))
    refine ⟨fun h => hrange (levelAt_none (.inl h)), fun h => hrange (levelAt_none (.inr h)), fun l x hx => ?_⟩
    have hserved := hexec.trans (congrArg Host.Outcome.next (serveLevelWrite_eq (s := taken rest s) hx))
    exact ⟨fun h => hserved.trans (congrArg Host.Outcome.next (if_pos (Tsq.busy_of h))),
      fun h => hserved.trans (congrArg Host.Outcome.next (if_neg (Bool.eq_false_iff.mp (Tsq.not_busy_of h))))⟩
  · have hexec := exec_head (c := .counterConfig) rfl hhead
    refine ⟨fun h => hexec.trans (congrArg Host.Outcome.next (serveCounterConfig_range h)), ?_⟩
    rintro c src run w x hc rfl hsrc hrun hw
    have hmode : writeModeAt q.payload 3 = some w := by
      rw [writeModeAt, hw]
      cases w <;> rfl
    have hserved := hexec.trans (congrArg Host.Outcome.next (serveCounterConfig_eq (s := taken rest s) hc
      (counterConfigAt_some (counterSourceAt_some hsrc) (flagAt_of_eq hrun) hmode)))
    exact ⟨fun h => hserved.trans (congrArg Host.Outcome.next (if_pos (Tsq.busy_of h))),
      fun h => hserved.trans (congrArg Host.Outcome.next (if_neg (Bool.eq_false_iff.mp (Tsq.not_busy_of h))))⟩
  · have hexec := exec_head (c := .compareWrite) rfl hhead
    refine ⟨fun h => hexec.trans (congrArg Host.Outcome.next (serveCompareWrite_range h)), ?_⟩
    rintro c v x y hc hv h0 rfl hy
    obtain rfl : y = (s.tsq.counters[c]'c.isLt).writeCompare v := hy
    refine hexec.trans (congrArg Host.Outcome.next ((serveCompareWrite_stored (s := taken rest s) hc hv h0).trans ?_))
    rw [Counter.compareBytes_eq]
    rfl

end Sys2Proof.Machine
end

section
/-! Capture offers (R121, R130, R131, R134, R142, R143) and the requests of the rings (R125, R127, R141). -/

namespace Sys2Proof.Machine

set_option Elab.async false

open Sys2Proof.Claims

/-! ## Marks and writes (R130, R131) -/

/-- Whether R130 calls for a MARK, as the rule lists it. -/
def Ring.markCalled (r : Ring) (v : Stamp) : Prop :=
  r.entries = [] ∨ r.markDue = true ∨ 64 ≤ r.sinceMark ∨
    ∀ ref, r.reference = some ref → (v - ref).toInt < -8388608 ∨ 8388607 < (v - ref).toInt

section
variable {r : Ring} {v : Stamp} {e : Int → Entry}

theorem deltaFits_eq_false {d : Int} : (!deltaFits d) = true ↔ d < -8388608 ∨ 8388607 < d := by
  simp only [deltaFits, Bool.not_eq_true', Bool.and_eq_false_iff, decide_eq_false_iff_not, Int.not_le]

theorem Ring.needsMark_iff_called : r.needsMark v = true ↔ r.markCalled v := by
  have hfits (ref : Stamp) : deltaFits (deltaOf v ref) = false ↔
    (v - ref).toInt < -8388608 ∨ 8388607 < (v - ref).toInt := by
    rw [← deltaFits_eq_false, Bool.not_eq_true', deltaOf]
  simp only [Ring.needsMark_iff_due, Ring.markCalled, hfits]

theorem Ring.write_called (h : r.markCalled v) :
    r.write v e =
      { r with
        entries := r.entries ++ [.mark v, e 0], reference := some v, markDue := false, sinceMark := 1
        head := if r.entries = [] then some v else r.head } := by
  rw [Ring.write_marked r v e (Ring.needsMark_iff_called.mpr h)]
  simp only [List.isEmpty_iff]

theorem Ring.write_uncalled {ref : Stamp} (hr : r.reference = some ref) (h : ¬ r.markCalled v) :
    r.write v e = { r with entries := r.entries ++ [e (v - ref).toInt], sinceMark := r.sinceMark + 1 } :=
  Ring.write_plain r v ref e (Bool.eq_false_iff.mpr (mt Ring.needsMark_iff_called.mp h)) hr

/-! ## Offers to a STREAM ring (R142, R143) -/

theorem Ring.streamed_eq (r : Ring) (v : Stamp) (e : Int → Entry) :
    r.streamed v e =
      if r.dropped = 0 then r.write v e
      else { r.write v (fun d => .gap d r.dropped) with dropped := 0 }.write v e := by
  by_cases h : r.dropped = 0
  · simp only [Ring.streamed, h, if_true]
  · simp only [Ring.streamed, h, if_false]

theorem Ring.offerStream_room (h : (r.streamed v e).occupancy ≤ r.capacity) : r.offerStream v e = r.streamed v e :=
  if_pos h

theorem Ring.offerStream_full (h : r.capacity < (r.streamed v e).occupancy) :
    r.offerStream v e = { r with dropped := min (2 ^ 32 - 1) (r.dropped + 1) } := if_neg (Nat.not_le.mpr h)

theorem Ring.beginsGap_iff :
    r.beginsGap v e = true ↔ r.dropped = 0 ∧ r.capacity < (r.streamed v e).occupancy := by
  rw [Ring.beginsGap, Bool.and_eq_true, beq_iff_eq, decide_eq_true_eq]

end

section
variable {s : State} {i : Fin 4} {x : Record} {strip : Bool} {g : Ring}

theorem offer_still (hg : g = (s.cst.rings[i]'i.isLt)) (hp : g.placed)
    (h : g.mode = .off ∨ g.state = .ready ∨ g.state = .frozen) : offer i x strip s = s := by
  subst hg
  rcases h with h | h | h
  · unfold Ring.placed at hp
    rw [h] at hp
    exact offer_discarded i x strip s (.inl hp.1)
  · exact offer_discarded i x strip s (.inr (.inl h))
  · exact offer_discarded i x strip s (.inr (.inr h))

theorem offer_room (hg : g = (s.cst.rings[i]'i.isLt)) (hs : g.state = .streaming)
    (h : (g.streamed x.stamp (ordinaryEntry x strip)).occupancy ≤ g.capacity) :
    offer i x strip s = setRing i (g.streamed x.stamp (ordinaryEntry x strip)) s := by
  have hbegins : ¬ g.beginsGap x.stamp (ordinaryEntry x strip) = true :=
    fun hb => Nat.not_lt.mpr h (Ring.beginsGap_iff.mp hb).2
  subst hg
  rw [offer_stream i x strip s hs, if_neg hbegins, Ring.offerStream_room h]

theorem offer_dropped (hg : g = (s.cst.rings[i]'i.isLt)) (hs : g.state = .streaming)
    (h : g.capacity < (g.streamed x.stamp (ordinaryEntry x strip)).occupancy) :
    offer i x strip s =
      if g.dropped = 0 then setAlert .ringGap (setRing i { g with dropped := min (2 ^ 32 - 1) (g.dropped + 1) } s)
      else setRing i { g with dropped := min (2 ^ 32 - 1) (g.dropped + 1) } s := by
  subst hg
  rw [offer_stream i x strip s hs, Ring.offerStream_full h]
  exact if_congr (Ring.beginsGap_iff.trans (and_iff_left h)) rfl rfl

end

/-! ## The notice of a frozen ring (R121) -/

/-- The notice noted in the post set. -/
def noteFrozen (i : Fin 4) (s : State) : State :=
  { s with tsq := { s.tsq with post := put s.tsq.post i ((s.tsq.post[i]'i.isLt).map fun _ => true) } }

theorem frozenNotice_eq (i : Fin 4) (s : State) :
    frozenNotice i s = if s.tsq.run = .triggered then finishRun (noteFrozen i s) else noteFrozen i s := rfl

theorem frozenNotice_open {i : Fin 4} {s : State}
    (h : s.tsq.run ≠ .triggered ∨ ∃ j : Fin 4, ((noteFrozen i s).tsq.post[j]'j.isLt) = some false) :
    frozenNotice i s = noteFrozen i s := by
  rw [frozenNotice_eq]
  split
  · next hrun =>
    obtain ⟨j, hj⟩ := h.resolve_left (not_not_intro hrun)
    exact finishRun_open (Bool.eq_false_iff.mpr fun hall => (Tsq.allFrozen_iff _).mp hall j hj)
  · rfl

theorem frozenNotice_last {i : Fin 4} {s : State} (hrun : s.tsq.run = .triggered)
    (h : ∀ j : Fin 4, ((noteFrozen i s).tsq.post[j]'j.isLt) ≠ some false) :
    frozenNotice i s =
      setAlert .done { noteFrozen i s with tsq := { (noteFrozen i s).tsq with run := .done } } :=
  (if_pos hrun).trans (finishRun_frozen ((Tsq.allFrozen_iff _).mpr h))

/-- Settles O27: by the ring's mode and state, the room of the whole write, and the dropped count. -/
theorem offersAreWrittenDroppedOrDiscarded : Obligations.OffersAreWrittenDroppedOrDiscarded := by
  refine ⟨?_, ?_, ?_⟩
  · rintro s i r strip g e hg hp he
    obtain rfl : e = ordinaryEntry r strip := he
    refine ⟨offer_still hg hp, fun _ hs w frozen hw => ?_, fun hs gap w hgap hw => ?_⟩
    · subst hg
      exact offer_window i r strip s (w, frozen) hs hw
    · obtain rfl : w = g.streamed r.stamp (ordinaryEntry r strip) := by
        rw [hw, hgap, Ring.streamed_eq]
      refine ⟨offer_room hg hs, fun hfull => ⟨fun h0 => ?_, fun h1 => ?_⟩⟩
      · rw [offer_dropped hg hs hfull, if_pos h0, h0]
        rfl
      · exact (offer_dropped hg hs hfull).trans (if_neg (by omega))
  · rintro r v e due rfl
    exact ⟨Ring.write_called, fun ref => Ring.write_uncalled⟩
  · rintro s u i hu
    obtain rfl : u = noteFrozen i s := hu
    exact ⟨frozenNotice_open, frozenNotice_last⟩

/-! ## RING CONFIG (R125, R127) -/

section
variable {s : State} {q : Request} {x : RingSettings}

theorem ringModeOf_num (m : RingMode) : ringModeOf m.num = some m := by
  cases m <;> rfl

theorem ringModeOf_none {n : Nat} (h : 3 ≤ n) : ringModeOf n = none := by
  unfold ringModeOf
  split
  · omega
  · omega
  · omega
  · rfl

theorem ringSettingsAt_none {p : List Byte}
    (h : 4 ≤ byteAt p 0 ∨ 3 ≤ byteAt p 1 ∨ 16777215 < numAt p 6 4 ∨ 4 ≤ byteAt p 10) : ringSettingsAt p = none := by
  unfold ringSettingsAt
  rcases h with h | h | h
  · rw [toFin_none h]
    rfl
  · rw [ringModeOf_none h]
    cases toFin 4 (byteAt p 0) <;> rfl
  · cases toFin 4 (byteAt p 0) with
    | none => rfl
    | some i =>
      cases ringModeOf (byteAt p 1) with
      | none => rfl
      | some m => exact (if_pos h).trans rfl

theorem ringSettingsAt_some {p : List Byte} {i : Fin 4} {mode : RingMode} (hi : byteAt p 0 = i.val)
    (hm : byteAt p 1 = mode.num) (hpost : numAt p 6 4 ≤ 16777215) (hprio : byteAt p 10 ≤ 3) :
    ringSettingsAt p =
      some { ring := i, mode, base := numAt p 2 2, size := numAt p 4 2, post := numAt p 6 4, priority := byteAt p 10 }
        := by
  unfold ringSettingsAt
  rw [toFin_of_eq hi, hm, ringModeOf_num]
  exact if_neg (by omega)

/-- An allocation R127 refuses: empty, outside the memory, or sharing a block. -/
def Cst.misallocates (c : Cst) (x : RingSettings) : Prop :=
  x.mode ≠ .off ∧ (x.size = 0 ∨ 8191 < x.base ∨ 8192 < x.base + x.size ∨
    ∃ j : Fin 4, j ≠ x.ring ∧ (c.rings[j]'j.isLt).mode ≠ .off ∧
      x.base < (c.rings[j]'j.isLt).base + (c.rings[j]'j.isLt).size ∧ (c.rings[j]'j.isLt).base < x.base + x.size)

theorem Cst.overlaps_iff (c : Cst) :
    c.overlaps x = true ↔
      ∃ j : Fin 4, j ≠ x.ring ∧ (c.rings[j]'j.isLt).mode ≠ .off ∧
        x.base < (c.rings[j]'j.isLt).base + (c.rings[j]'j.isLt).size ∧
        (c.rings[j]'j.isLt).base < x.base + x.size := by
  simp only [Cst.overlaps, List.any_eq_true, List.mem_finRange, true_and, Bool.and_eq_true, bne_iff_ne,
    decide_eq_true_eq, and_assoc]

theorem Cst.allows_iff (c : Cst) : c.allows x = true ↔ ¬ c.misallocates x := by
  unfold Cst.misallocates
  rw [← Cst.overlaps_iff]
  simp only [Cst.allows, Bool.or_eq_true, Bool.and_eq_true, beq_iff_eq, decide_eq_true_eq, Bool.not_eq_true',
    ← Bool.not_eq_true, not_and_or, not_or, not_not, Config.memoryBlocks]
  rw [and_assoc, and_assoc]
  exact or_congr Iff.rfl
    (and_congr (by omega) (and_congr (by omega) (and_congr (by omega) Iff.rfl)))

theorem serveRingConfig_notReady (h : s.cst.ready = false) : serveRingConfig q s = refuse q .notReady s := if_pos h

theorem serveRingConfig_range (h : s.cst.ready = true) (hx : ringSettingsAt q.payload = none) :
    serveRingConfig q s = refuse q .range s := by
  rw [serveRingConfig, if_neg (by rw [h]; decide), hx]

theorem serveRingConfig_eq (h : s.cst.ready = true) (hx : ringSettingsAt q.payload = some x) {r : Ring}
    (hr : r = (s.cst.rings[x.ring]'x.ring.isLt)) :
    serveRingConfig q s =
      if s.cst.allows x = false then refuse q .range s
      else if r.state = .running ∨ r.state = .post ∨ r.state = .streaming then refuse q .state s
      else if (r.mode = .window ∨ x.mode = .window) ∧ s.tsq.busy = true then refuse q .state s
      else done q [] (setRing x.ring (r.configure x) s) := by
  rw [serveRingConfig, if_neg (by rw [h]; decide), hx, hr]

theorem Tsq.busy_iff (u : Tsq) : u.busy = true ↔ u.run = .armed ∨ u.run = .triggered := by
  rw [Tsq.busy, Bool.or_eq_true, beq_iff_eq, beq_iff_eq]

/-! ## RING START and RING STOP (R141) -/

theorem serveRingStart_notReady (h : s.cst.ready = false) : serveRingStart q s = refuse q .notReady s := if_pos h

theorem serveRingStart_range (h : s.cst.ready = true) (hi : 4 ≤ byteAt q.payload 0) :
    serveRingStart q s = refuse q .range s := by
  rw [serveRingStart, if_neg (by rw [h]; decide), toFin_none hi]

theorem serveRingStart_eq (h : s.cst.ready = true) {i : Fin 4} (hi : byteAt q.payload 0 = i.val) {r : Ring}
    (hr : r = (s.cst.rings[i]'i.isLt)) :
    serveRingStart q s =
      if r.mode = .stream ∧ r.state = .ready then done q [] (setRing i { r with state := .streaming } s)
      else refuse q .state s := by
  rw [serveRingStart, if_neg (by rw [h]; decide), toFin_of_eq hi, hr]

theorem serveRingStop_notReady (h : s.cst.ready = false) : serveRingStop q s = refuse q .notReady s := if_pos h

theorem serveRingStop_range (h : s.cst.ready = true) (hi : 4 ≤ byteAt q.payload 0) :
    serveRingStop q s = refuse q .range s := by
  rw [serveRingStop, if_neg (by rw [h]; decide), toFin_none hi]

theorem serveRingStop_eq (h : s.cst.ready = true) {i : Fin 4} (hi : byteAt q.payload 0 = i.val) {r : Ring}
    (hr : r = (s.cst.rings[i]'i.isLt)) :
    serveRingStop q s =
      if r.mode = .stream then done q [] (if r.state = .streaming then setRing i r.stopStream s else s)
      else refuse q .state s := by
  rw [serveRingStop, if_neg (by rw [h]; decide), toFin_of_eq hi, hr]

end

/-- Settles O38: memory ready first, then the fields, the allocation, and the states. -/
theorem ringRequestsAllocateStartAndStop : Obligations.RingRequestsAllocateStartAndStop := by
  refine ⟨fun s => ⟨rfl, fun q rest hhead => ?_⟩, fun s q rest => ⟨fun hhead => ?_, fun hhead => ?_⟩⟩
  · have hexec := exec_head (c := .ringConfig) rfl hhead
    refine ⟨fun h => hexec.trans (congrArg Host.Outcome.next (serveRingConfig_notReady (s := taken rest s) h)),
      fun hready => ⟨fun h => hexec.trans
        (congrArg Host.Outcome.next (serveRingConfig_range (s := taken rest s) hready (ringSettingsAt_none h))), ?_⟩⟩
    rintro i mode base size r bad state busy hi hm rfl rfl hpost hprio hr hbad rfl rfl
    have hserved := hexec.trans (congrArg Host.Outcome.next
      (serveRingConfig_eq (s := taken rest s) hready (ringSettingsAt_some hi hm hpost hprio) hr))
    have hallows : s.cst.allows
        { ring := i, mode, base := numAt q.payload 2 2, size := numAt q.payload 4 2, post := numAt q.payload 6 4
          priority := byteAt q.payload 10 } = false ↔ bad := by
      rw [← Bool.not_eq_true, Cst.allows_iff, not_not, hbad]
      exact Iff.rfl
    have hbusy := Tsq.busy_iff s.tsq
    refine ⟨fun h => hserved.trans (congrArg Host.Outcome.next (if_pos (hallows.mpr h))), fun hok h => ?_,
      fun hok h h' => ?_⟩
    · refine hserved.trans (congrArg Host.Outcome.next ((if_neg (mt hallows.mp hok)).trans ?_))
      by_cases hstate : r.state = .running ∨ r.state = .post ∨ r.state = .streaming
      · exact if_pos hstate
      · obtain ⟨hwindow, hrun⟩ := h.resolve_left hstate
        exact (if_neg hstate).trans (if_pos ⟨hwindow, hbusy.mpr hrun⟩)
    · exact hserved.trans (congrArg Host.Outcome.next ((if_neg (mt hallows.mp hok)).trans
        ((if_neg h).trans (if_neg fun hb => h' ⟨hb.1, hbusy.mp hb.2⟩))))
  · have hexec := exec_head (c := .ringStart) rfl hhead
    refine ⟨fun h => hexec.trans (congrArg Host.Outcome.next (serveRingStart_notReady (s := taken rest s) h)),
      fun hready hi => hexec.trans (congrArg Host.Outcome.next (serveRingStart_range (s := taken rest s) hready hi)),
      fun i hready hi => ?_⟩
    have hserved := hexec.trans (congrArg Host.Outcome.next (serveRingStart_eq (s := taken rest s) hready hi rfl))
    exact ⟨fun hm hs => hserved.trans (congrArg Host.Outcome.next (if_pos ⟨hm, hs⟩)),
      fun h => hserved.trans (congrArg Host.Outcome.next (if_neg fun h' => h.elim (· h'.1) (· h'.2)))⟩
  · have hexec := exec_head (c := .ringStop) rfl hhead
    refine ⟨fun h => hexec.trans (congrArg Host.Outcome.next (serveRingStop_notReady (s := taken rest s) h)),
      fun hready hi => hexec.trans (congrArg Host.Outcome.next (serveRingStop_range (s := taken rest s) hready hi)),
      fun i hready hi => ?_⟩
    have hserved := hexec.trans (congrArg Host.Outcome.next (serveRingStop_eq (s := taken rest s) hready hi rfl))
    refine ⟨fun hm hs => ?_, fun hm hs => ?_, fun hm => hserved.trans (congrArg Host.Outcome.next (if_neg hm))⟩
    · exact hserved.trans (congrArg Host.Outcome.next ((if_pos hm).trans (congrArg (done q []) (if_pos hs))))
    · exact hserved.trans (congrArg Host.Outcome.next ((if_pos hm).trans (congrArg (done q []) (if_neg hs))))

end Sys2Proof.Machine
end

section
/-! The paths of the test access port (8.1, R153, R154) and the paths of an aborted scan (R165, R166). -/

namespace Sys2Proof.Machine

set_option Elab.async false

open Sys2Proof.Claims

/-! ## Runs of the port -/

section
variable {shift p : Port} {k : TckClock} {l m : List TckClock}

theorem Port.run_cons (p : Port) (k : TckClock) (l : List TckClock) : p.run (k :: l) = (p.move k.tms).run l := rfl

theorem Port.run_append (p : Port) (l m : List TckClock) : p.run (l ++ m) = (p.run l).run m := List.foldl_append

theorem shiftsRight_nil : shiftsRight shift p [] := by
  intro a k b h
  cases List.append_eq_nil_iff.mp h.symm |>.2

theorem shiftsRight_cons :
    shiftsRight shift p (k :: l) ↔ (k.out.isSome = true ↔ p = shift) ∧ shiftsRight shift (p.move k.tms) l := by
  refine ⟨fun h => ⟨h [] k l rfl, fun a x b hl => h (k :: a) x b (by rw [hl]; rfl)⟩, fun ⟨hk, hl⟩ a x b h => ?_⟩
  cases a with
  | nil =>
    obtain ⟨rfl, rfl⟩ := List.cons.inj h
    exact hk
  | cons y a =>
    obtain ⟨rfl, rfl⟩ := List.cons.inj h
    exact hl a x b rfl

theorem shiftsRight_append : shiftsRight shift p (l ++ m) ↔ shiftsRight shift p l ∧ shiftsRight shift (p.run l) m := by
  induction l generalizing p with
  | nil => exact ⟨fun h => ⟨shiftsRight_nil, h⟩, fun h => h.2⟩
  | cons k l ih => rw [List.cons_append, shiftsRight_cons, shiftsRight_cons, ih, Port.run_cons, and_assoc]

end

/-! ## The segments of a plan (R153, R154) -/

/-- The shift and the first exit state of a register. -/
def shiftPort (k : ScanKind) : Port := if k = .irScan then .shiftIr else .shiftDr

def exitPort (k : ScanKind) : Port := if k = .irScan then .exit1Ir else .exit1Dr

section
variable {k : ScanKind} {t : TapState}

theorem shiftPort_move (k : ScanKind) (tms : Bool) :
    (shiftPort k).move tms = if tms then exitPort k else shiftPort k := by
  unfold shiftPort exitPort
  split
  · rfl
  · rfl

theorem shiftClocks_cons (b : Bool) (l : List Bool) :
    shiftClocks (b :: l) = { tms := l.isEmpty, part := .shift, out := some b } :: shiftClocks l := by
  cases l <;> rfl

theorem shiftClocks_out (l : List Bool) : (shiftClocks l).filterMap (·.out) = l := by
  induction l with
  | nil => rfl
  | cons b l ih =>
    rw [shiftClocks_cons]
    exact congrArg (b :: ·) ih

theorem shiftClocks_length (l : List Bool) : (shiftClocks l).length = l.length := by
  induction l with
  | nil => rfl
  | cons b l ih => rw [shiftClocks_cons, List.length_cons, List.length_cons, ih]

theorem run_shiftClocks {l : List Bool} (h : l ≠ []) : (shiftPort k).run (shiftClocks l) = exitPort k := by
  induction l with
  | nil => exact absurd rfl h
  | cons b l ih =>
    rw [shiftClocks_cons, Port.run_cons, shiftPort_move]
    cases l with
    | nil => rfl
    | cons c l => exact ih nofun

theorem shiftsRight_shiftClocks (l : List Bool) : shiftsRight (shiftPort k) (shiftPort k) (shiftClocks l) := by
  induction l with
  | nil => exact shiftsRight_nil
  | cons b l ih =>
    rw [shiftClocks_cons, shiftsRight_cons, shiftPort_move]
    refine ⟨⟨fun _ => rfl, fun _ => rfl⟩, ?_⟩
    cases l with
    | nil => exact shiftsRight_nil
    | cons c l => exact ih

theorem plainClocks_out (part : ClockPart) (l : List Bool) : (plainClocks part l).filterMap (·.out) = [] :=
  List.filterMap_eq_nil_iff.mpr fun x hx => by
    obtain ⟨b, -, rfl⟩ := List.mem_map.mp hx
    rfl

theorem plainClocks_length (part : ClockPart) (l : List Bool) :
    (plainClocks part l).length = l.length := List.length_map _

theorem run_entryPath (ht : t ≠ .unknown) (hk : k = .irScan ∨ k = .drScan) :
    (portOf t).run (plainClocks .entry (entryPath k t)) = shiftPort k := by
  cases t
  case unknown => exact absurd rfl ht
  all_goals rcases hk with rfl | rfl <;> rfl

/-- The states the port is in at the clocks of a list. -/
def portTrace (p : Port) : List TckClock → List Port
  | [] => []
  | k :: l => p :: portTrace (p.move k.tms) l

theorem shiftsRight_plainClocks {shift p : Port} {part : ClockPart} {l : List Bool}
    (h : shift ∉ portTrace p (plainClocks part l)) : shiftsRight shift p (plainClocks part l) := by
  induction l generalizing p with
  | nil => exact shiftsRight_nil
  | cons b l ih =>
    obtain ⟨hp, hl⟩ := not_or.mp (mt List.mem_cons.mpr h)
    exact shiftsRight_cons.mpr ⟨⟨fun h => (nomatch h), fun h => absurd h.symm hp⟩, ih hl⟩

theorem shiftsRight_entryPath (ht : t ≠ .unknown) (hk : k = .irScan ∨ k = .drScan) :
    shiftsRight (shiftPort k) (portOf t) (plainClocks .entry (entryPath k t)) := by
  refine shiftsRight_plainClocks ?_
  cases t
  case unknown => exact absurd rfl ht
  all_goals rcases hk with rfl | rfl <;> decide

/-! ## The paths of a scan (R153, R154) -/

/-- The clocks of an IR or DR scan after its entry. -/
def shiftAndExit (c : Scan) : List TckClock :=
  shiftClocks c.out ++ plainClocks .exit (if c.pause then [false] else [true, false])

theorem scanPlan_shifting {c : Scan} (hk : c.kind = .irScan ∨ c.kind = .drScan) (t : TapState) :
    scanPlan c t = plainClocks .entry (entryPath c.kind t) ++ shiftAndExit c := by
  unfold scanPlan shiftAndExit
  rcases hk with hk | hk <;> rw [hk] <;> exact List.append_assoc _ _ _

theorem scanPlan_tapReset {c : Scan} (hk : c.kind = .tapReset) (t : TapState) :
    scanPlan c t = plainClocks .resetHigh (List.replicate 5 true) ++ plainClocks .resetLow [false] := by
  rw [scanPlan, hk]

theorem scanPlan_idleClocks {c : Scan} (hk : c.kind = .idleClocks) (t : TapState) :
    scanPlan c t = plainClocks .idlePath (idlePath t) ++ plainClocks .idle (List.replicate c.length false) := by
  rw [scanPlan, hk]

theorem run_exit {c : Scan} (hk : c.kind = .irScan ∨ c.kind = .drScan) :
    (exitPort c.kind).run (plainClocks .exit (if c.pause then [false] else [true, false])) = portOf c.endState := by
  unfold Scan.endState Scan.pauseState
  rcases hk with hk | hk <;> rw [hk] <;> cases c.pause <;> rfl

theorem shiftsRight_exit {k : ScanKind} (pause : Bool) :
    shiftsRight (shiftPort k) (exitPort k) (plainClocks .exit (if pause then [false] else [true, false])) := by
  refine shiftsRight_plainClocks ?_
  cases k <;> cases pause <;> decide

theorem run_idlePath (ht : t ≠ .unknown) : (portOf t).run (plainClocks .idlePath (idlePath t)) = .idle := by
  cases t
  case unknown => exact absurd rfl ht
  all_goals rfl

theorem run_idle (n : Nat) : Port.idle.run (plainClocks .idle (List.replicate n false)) = .idle := by
  induction n with
  | zero => rfl
  | succ n ih => exact ih

theorem run_resetHigh (p : Port) : p.run (plainClocks .resetHigh (List.replicate 5 true)) = .reset := by
  cases p <;> rfl

theorem run_tapReset {c : Scan} (hk : c.kind = .tapReset) (p : Port) (t : TapState) : p.run (scanPlan c t) = .idle := by
  rw [scanPlan_tapReset hk, Port.run_append, run_resetHigh]
  rfl

/-- What a scan SCAN SUBMIT can carry has to shift. -/
theorem validScan_out {c : Scan} (h : validScan c) :
    ((c.kind = .irScan ∨ c.kind = .drScan) → c.out ≠ [] ∧ c.out.length = c.length) ∧
      ((c.kind = .tapReset ∨ c.kind = .idleClocks) → c.out = [] ∧ c.pause = false) := by
  unfold validScan at h
  have hne (h1 : 1 ≤ c.length) (ho : c.out.length = c.length) : c.out ≠ [] := by
    rw [← List.length_pos_iff]
    omega
  cases hk : c.kind <;> rw [hk] at h
  case irScan | drScan =>
    obtain ⟨h1, -, ho⟩ := h
    exact ⟨fun _ => ⟨hne h1 ho, ho⟩, nofun⟩
  case tapReset =>
    obtain ⟨-, ho, hp⟩ := h
    exact ⟨nofun, fun _ => ⟨ho, hp⟩⟩
  case idleClocks =>
    obtain ⟨-, -, ho, hp⟩ := h
    exact ⟨nofun, fun _ => ⟨ho, hp⟩⟩

theorem endState_idle {c : Scan} (h : c.pause = false) : portOf c.endState = .idle := by
  rw [Scan.endState, h]
  rfl

theorem run_scanPlan {c : Scan} (h : validScan c) (ht : t ≠ .unknown) :
    (portOf t).run (scanPlan c t) = portOf c.endState := by
  obtain ⟨hshift, hplain⟩ := validScan_out h
  have hshifting (hk : c.kind = .irScan ∨ c.kind = .drScan) : (portOf t).run (scanPlan c t) = portOf c.endState := by
    rw [scanPlan_shifting hk, shiftAndExit, Port.run_append, Port.run_append, run_entryPath ht hk,
      run_shiftClocks (hshift hk).1, run_exit hk]
  cases hk : c.kind
  case irScan => exact hshifting (.inl hk)
  case drScan => exact hshifting (.inr hk)
  case tapReset => rw [run_tapReset hk, endState_idle (hplain (.inl hk)).2]
  case idleClocks =>
    rw [scanPlan_idleClocks hk, Port.run_append, run_idlePath ht, run_idle, endState_idle (hplain (.inr hk)).2]

theorem scanPlan_out {c : Scan} (h : validScan c) : (scanPlan c t).filterMap (·.out) = c.out := by
  obtain ⟨hshift, hplain⟩ := validScan_out h
  have hshifting (hk : c.kind = .irScan ∨ c.kind = .drScan) : (scanPlan c t).filterMap (·.out) = c.out := by
    rw [scanPlan_shifting hk, shiftAndExit, List.filterMap_append, List.filterMap_append, plainClocks_out,
      plainClocks_out,
      shiftClocks_out, List.append_nil, List.nil_append]
  cases hk : c.kind
  case irScan => exact hshifting (.inl hk)
  case drScan => exact hshifting (.inr hk)
  case tapReset =>
    rw [scanPlan_tapReset hk, List.filterMap_append, plainClocks_out, plainClocks_out, (hplain (.inl hk)).1]
    rfl
  case idleClocks =>
    rw [scanPlan_idleClocks hk, List.filterMap_append, plainClocks_out, plainClocks_out, (hplain (.inr hk)).1]
    rfl

theorem shiftsRight_scanPlan {c : Scan} (h : validScan c) (ht : t ≠ .unknown)
    (hk : c.kind = .irScan ∨ c.kind = .drScan) : shiftsRight (shiftPort c.kind) (portOf t) (scanPlan c t) := by
  obtain ⟨hne, -⟩ := (validScan_out h).1 hk
  rw [scanPlan_shifting hk, shiftAndExit, shiftsRight_append, shiftsRight_append, run_entryPath ht hk,
    run_shiftClocks hne]
  exact ⟨shiftsRight_entryPath ht hk, shiftsRight_shiftClocks _, shiftsRight_exit _⟩

theorem scanPlan_length {c : Scan} (h : validScan c) (hk : c.kind = .irScan ∨ c.kind = .drScan) (hp : c.pause = false) :
    (scanPlan c t).length = (entryPath c.kind t).length + (c.length + 2) := by
  obtain ⟨-, hlen⟩ := (validScan_out h).1 hk
  rw [scanPlan_shifting hk, shiftAndExit, List.length_append, List.length_append, plainClocks_length,
    plainClocks_length,
    shiftClocks_length, hlen, hp]
  rfl

end

/-- Settles O40: segment by segment. -/
theorem scanPathsBringThePortToTheEndState : Obligations.ScanPathsBringThePortToTheEndState := by
  refine ⟨fun c t h ht => ⟨run_scanPlan h ht, scanPlan_out h, fun hk => ?_, fun hk => ?_, ?_, ?_⟩,
    fun c p t _ hk => run_tapReset hk p t⟩
  · have hright := shiftsRight_scanPlan h ht (.inr hk)
    rwa [hk] at hright
  · have hright := shiftsRight_scanPlan h ht (.inl hk)
    rwa [hk] at hright
  · rintro hk rfl hp
    rw [scanPlan_length h (.inr hk) hp, hk]
    exact Nat.add_comm 3 _
  · rintro hk rfl hp
    rw [scanPlan_length h (.inl hk) hp, hk]
    exact Nat.add_comm 4 _

/-! ## Aborted scans (R165, R166) -/

/-- An abort at the first clock of a list: where it leaves the port, stopped or run on. -/
def abortsHead (stop fin p : Port) (k : TckClock) (b : List TckClock) : Prop :=
  ((abortPlan k b).1 = .aborting ∨ (abortPlan k b).2.2 = true → p.run (k :: (abortPlan k b).2.1) = stop) ∧
    ((abortPlan k b).1 = .shift → (abortPlan k b).2.2 = false → p.run (k :: (abortPlan k b).2.1) = fin)

/-- An abort at every clock of a list. -/
def abortsRight (stop fin p : Port) (l : List TckClock) : Prop :=
  ∀ a k b, l = a ++ k :: b → abortsHead stop fin (p.run a) k b

section
variable {stop fin p : Port} {k : TckClock} {l : List TckClock}

theorem abortsRight_nil : abortsRight stop fin p [] := by
  intro a k b h
  cases List.append_eq_nil_iff.mp h.symm |>.2

theorem abortsRight_cons (hk : abortsHead stop fin p k l) (hl : abortsRight stop fin (p.move k.tms) l) :
    abortsRight stop fin p (k :: l) := by
  intro a x b h
  cases a with
  | nil =>
    obtain ⟨rfl, rfl⟩ := List.cons.inj h
    exact hk
  | cons y a =>
    obtain ⟨rfl, rfl⟩ := List.cons.inj h
    exact hl a x b rfl

theorem abortsHead_stops {plan : List TckClock} {phase : ScanPhase} {short : Bool}
    (h : abortPlan k l = (phase, plan, short)) (hs : phase = .aborting ∨ short = true) (hr : p.run (k :: plan) = stop) :
    abortsHead stop fin p k l := by
  rw [abortsHead, h]
  refine ⟨fun _ => hr, fun hp hn => ?_⟩
  rcases hs with rfl | rfl
  · cases hp
  · cases hn

theorem abortsHead_runsOn {plan : List TckClock} (h : abortPlan k l = (.shift, plan, false))
    (hr : p.run (k :: plan) = fin) : abortsHead stop fin p k l := by
  rw [abortsHead, h]
  refine ⟨fun hs => ?_, fun _ _ => hr⟩
  rcases hs with hs | hs <;> cases hs

/-- The exit path runs on. -/
theorem abortsRight_exit {levels : List Bool} (h : p.run (plainClocks .exit levels) = fin) :
    abortsRight stop fin p (plainClocks .exit levels) := by
  induction levels generalizing p with
  | nil => exact abortsRight_nil
  | cons b levels ih => exact abortsRight_cons (abortsHead_runsOn rfl h) (ih h)

/-- The pause state of a register, where an abort in the entry or the shift leaves the port. -/
def pausePort (k : ScanKind) : Port := if k = .irScan then .pauseIr else .pauseDr

theorem run_further (c : ScanKind) (b : Bool) :
    (shiftPort c).run [{ tms := true, part := .shift, out := some b }, { tms := false, part := .exit, out := none }] =
      pausePort c := by
  unfold shiftPort pausePort
  split <;> rfl

/-- A shift stops after its clock, but for the last, after which the exit path runs on. -/
theorem abortsRight_shift {c : ScanKind} {bits : List Bool} (hb : bits ≠ [])
    (hl : abortsRight (pausePort c) fin (exitPort c) l)
    (hr : (exitPort c).run l = fin) : abortsRight (pausePort c) fin (shiftPort c) (shiftClocks bits ++ l) := by
  induction bits with
  | nil => exact absurd rfl hb
  | cons b bits ih =>
    rw [shiftClocks_cons, List.cons_append]
    cases bits with
    | nil =>
      refine abortsRight_cons (abortsHead_runsOn rfl ?_) ?_
      · rw [Port.run_cons, shiftPort_move]
        exact hr
      · rw [shiftPort_move]
        exact hl
    | cons d bits =>
      refine abortsRight_cons (abortsHead_stops rfl (.inl rfl) ?_) ?_
      · rw [Port.run_cons, shiftPort_move]
        exact run_further c _
      · rw [shiftPort_move]
        exact ih nofun

/-- An entry runs to the shift state and stops there. -/
theorem abortsRight_entry {c : ScanKind} {levels : List Bool} (hr : p.run (plainClocks .entry levels) = shiftPort c)
    (hl : abortsRight (pausePort c) fin (shiftPort c) l) (hfirst : l.takeWhile (·.part == .entry) = []) :
    abortsRight (pausePort c) fin p (plainClocks .entry levels ++ l) := by
  induction levels generalizing p with
  | nil =>
    obtain rfl : p = shiftPort c := hr
    exact hl
  | cons b levels ih =>
    refine abortsRight_cons (abortsHead_stops rfl (.inl rfl) ?_) (ih hr)
    have hall : ∀ x ∈ plainClocks .entry levels, (x.part == .entry) = true := by
      intro x hx
      obtain ⟨y, -, rfl⟩ := List.mem_map.mp hx
      rfl
    change p.run (_ :: ((plainClocks .entry levels ++ l).takeWhile _ ++ _)) = _
    rw [List.takeWhile_append_of_pos hall, hfirst, List.append_nil, ← List.cons_append, Port.run_append]
    exact (congrArg (Port.run · _) hr).trans (run_further c _)

/-- The path into IDLE runs to IDLE and stops there; a stop there ends the scan. -/
theorem abortsRight_idle (n : Nat) : abortsRight .idle .idle .idle (plainClocks .idle (List.replicate n false)) := by
  induction n with
  | zero => exact abortsRight_nil
  | succ n ih =>
    refine abortsRight_cons ?_ ih
    exact ⟨fun _ => rfl, fun _ _ => rfl⟩

theorem abortsRight_idlePath {levels : List Bool} (hr : p.run (plainClocks .idlePath levels) = .idle)
    (hl : abortsRight .idle .idle .idle l) (hfirst : l.takeWhile (·.part == .idlePath) = []) :
    abortsRight .idle .idle p (plainClocks .idlePath levels ++ l) := by
  induction levels generalizing p with
  | nil =>
    obtain rfl : p = .idle := hr
    exact hl
  | cons b levels ih =>
    refine abortsRight_cons (abortsHead_stops rfl (.inr rfl) ?_) (ih hr)
    have hall : ∀ x ∈ plainClocks .idlePath levels, (x.part == .idlePath) = true := by
      intro x hx
      obtain ⟨y, -, rfl⟩ := List.mem_map.mp hx
      rfl
    change p.run (_ :: (plainClocks .idlePath levels ++ l).takeWhile _) = _
    rw [List.takeWhile_append_of_pos hall, hfirst, List.append_nil]
    exact hr

end

section
variable {c : Scan} {t : TapState}

theorem abortsRight_shifting (h : validScan c) (ht : t ≠ .unknown) (hk : c.kind = .irScan ∨ c.kind = .drScan) :
    abortsRight (pausePort c.kind) (portOf c.endState) (portOf t) (scanPlan c t) := by
  obtain ⟨hne, -⟩ := (validScan_out h).1 hk
  rw [scanPlan_shifting hk, shiftAndExit]
  refine abortsRight_entry (run_entryPath ht hk)
    (abortsRight_shift hne (abortsRight_exit (run_exit hk)) (run_exit hk)) ?_
  obtain ⟨b, bits, hbits⟩ := List.exists_cons_of_ne_nil hne
  rw [hbits, shiftClocks_cons]
  rfl

theorem abortsRight_idleClocks (ht : t ≠ .unknown) (hk : c.kind = .idleClocks) :
    abortsRight .idle .idle (portOf t) (scanPlan c t) := by
  rw [scanPlan_idleClocks hk]
  refine abortsRight_idlePath (run_idlePath ht) (abortsRight_idle _) ?_
  cases c.length <;> rfl

/-- A TAP-RESET stops at RESET while its five clocks of TMS high last, from wherever it starts. -/
theorem abort_tapReset (hk : c.kind = .tapReset) {a b : List TckClock} {k : TckClock} (h : scanPlan c t = a ++ k :: b)
    (p : Port) :
    (abortPlan k b).1 = .shift ∧ ((abortPlan k b).2.2 = true ↔ a.length ≤ 4) ∧
      p.run (a ++ k :: (abortPlan k b).2.1) = if a.length ≤ 4 then .reset else .idle := by
  have hlow := run_tapReset hk p t
  have hhigh := run_resetHigh p
  rw [scanPlan_tapReset hk] at h hlow
  rcases a with _ | ⟨a1, _ | ⟨a2, _ | ⟨a3, _ | ⟨a4, _ | ⟨a5, _ | ⟨a6, a⟩⟩⟩⟩⟩⟩
  case cons.cons.cons.cons.cons.cons => cases a <;> cases h
  case cons.cons.cons.cons.cons.nil =>
    cases h
    exact ⟨rfl, by decide, hlow⟩
  all_goals
    cases h
    exact ⟨rfl, by decide, hhigh⟩

end

/-- Settles O41: segment by segment, with what an abort leaves of the segment in progress. -/
theorem abortedScanLeavesThePortWhereTracked : Obligations.AbortedScanLeavesThePortWhereTracked := by
  refine ⟨fun c t a k b h ht hplan => ?_, fun c p t a k b _ hk hplan => abort_tapReset hk hplan p⟩
  obtain ⟨-, hplain⟩ := validScan_out h
  have hhead {stop fin : Port} (hright : abortsRight stop fin (portOf t) (scanPlan c t)) :
      abortsHead stop fin ((portOf t).run a) k b := hright a k b hplan
  rw [Port.run_append]
  cases hk : c.kind
  case irScan =>
    have hright := hhead (abortsRight_shifting h ht (.inl hk))
    rw [hk] at hright
    rw [Scan.abortState, hk]
    exact hright
  case drScan =>
    have hright := hhead (abortsRight_shifting h ht (.inr hk))
    rw [hk] at hright
    rw [Scan.abortState, hk]
    exact hright
  case idleClocks =>
    rw [Scan.abortState, hk, endState_idle (hplain (.inr hk)).2]
    exact hhead (abortsRight_idleClocks ht hk)
  case tapReset =>
    obtain ⟨-, hshort, hrun⟩ := abort_tapReset hk hplan (portOf t)
    rw [Port.run_append] at hrun
    rw [Scan.abortState, hk, endState_idle (hplain (.inl hk)).2, hrun]
    refine ⟨fun hs => if_pos (hshort.mp (hs.resolve_left ?_)), fun _ hn => if_neg fun hle => ?_⟩
    · rw [(abort_tapReset hk hplan (portOf t)).1]
      decide
    · rw [hshort.mpr hle] at hn
      cases hn

end Sys2Proof.Machine
end

section
/-! Frames that arrive, and SOFT RESET (10.4, R188–R192, R201, R202). -/

namespace Sys2Proof.Machine

set_option Elab.async false

open Sys2Proof.Claims

/-! ## Arrival (R188–R190) -/

/-- The low four bits of the part address are the fixture number's. -/
theorem Slu.address_eq (u : Slu) : u.address = 0x024A50540000 + u.fixture.setWidth 48 := by
  have sum_of_fixture : ∀ x : BitVec 4, (0x024A50540000#48 ||| x.setWidth 48) = 0x024A50540000#48 + x.setWidth 48 := by
    decide
  exact sum_of_fixture u.fixture

theorem State.acceptsFrame_iff (s : State) (f : Frame) :
    s.acceptsFrame f = true ↔ f.checkGood = true ∧ s.pins.linkDown = false ∧
      (f.dst = 0x024A50540000 + s.slu.fixture.setWidth 48 ∨ (f.dst = 0xFFFFFFFFFFFF ∧ f.payload.getD 4 0 = 0x01)) ∧
      f.etherType = 0x9A17 ∧ 8 ≤ f.payload.length ∧ byteAt f.payload 1 = 1 ∧ s.slu.owed.length < 64 := by
  simp only [State.acceptsFrame, Bool.and_eq_true, Bool.or_eq_true, beq_iff_eq, decide_eq_true_eq, Bool.not_eq_true',
    and_assoc, Slu.address_eq]
  exact Iff.rfl

theorem frameBad_iff {f : Frame} (h : 8 ≤ f.payload.length) :
    frameBad f = true ↔ byteAt f.payload 0 ≠ 1 ∨ 1492 < numAt f.payload 6 2 ∨
      f.payload.length < 8 + numAt f.payload 6 2 ∨
      ∀ form ∈ requestForms, form.code = f.payload.getD 4 0 →
        ¬(form.least ≤ numAt f.payload 6 2 ∧ numAt f.payload 6 2 ≤ form.most) := by
  have noForm : (!lengthAllowed (frameCode f) (frameLength f)) = true ↔
      ∀ form ∈ requestForms, form.code = f.payload.getD 4 0 →
        ¬(form.least ≤ numAt f.payload 6 2 ∧ numAt f.payload 6 2 ≤ form.most) := by
    rw [Bool.not_eq_true', ← Bool.not_eq_true, lengthAllowed_iff]
    exact ⟨fun hno form hf hc hl => hno ⟨form, hf, hc, hl⟩, fun hno ⟨form, hf, hc, hl⟩ => hno form hf hc hl⟩
  have tooShort : f.payload.length - 8 < frameLength f ↔ f.payload.length < 8 + numAt f.payload 6 2 := by
    rw [frameLength]
    omega
  simp only [frameBad, Bool.or_eq_true, noForm, bne_iff_ne, decide_eq_true_eq, tooShort, or_assoc]
  exact Iff.rfl

/-- Settles O50: the header checks of the model, each as the rule states it. -/
theorem frameArrivalAcceptsAndChecks : Obligations.FrameArrivalAcceptsAndChecks := by
  unfold Obligations.FrameArrivalAcceptsAndChecks
  intro s f accepted haccepted
  rw [← State.acceptsFrame_iff] at haccepted
  subst haccepted
  refine ⟨fun hno => ?_, ?_⟩
  · exact congrArg Host.Outcome.next (frameArrival_ignored f s (Bool.not_eq_true _ ▸ hno))
  · intro hyes q u n bad hq hu hn hbad
    have hlen : 8 ≤ f.payload.length := ((State.acceptsFrame_iff s f).mp hyes).2.2.2.2.1
    subst hq hu hn
    rw [← frameBad_iff hlen] at hbad
    subst hbad
    have arrival : exec (.frameArrival f) s = .next
      (checkHeader (s.slu.ticketOf f) f { s with slu := s.slu.acceptFrame f }) :=
      congrArg Host.Outcome.next (frameArrival_accepted f s hyes)
    refine ⟨fun h => ?_, fun h hfull => ?_, fun h hroom => ?_⟩
    · exact arrival.trans (congrArg Host.Outcome.next (checkHeader_bad _ f _ h))
    · exact arrival.trans (congrArg Host.Outcome.next (checkHeader_full _ f _ (Bool.not_eq_true _ ▸ h) hfull))
    · exact arrival.trans (congrArg Host.Outcome.next (checkHeader_queued _ f _ (Bool.not_eq_true _ ▸ h) hroom))

/-! ## SOFT RESET (R201, R202) -/

/-- The owed list once each of some requests is answered. -/
def owedAfter (l : List Ticket) (owed : List Owed) : List Owed :=
  owed.map fun o => { o with answered := o.answered || l.any fun t => o.ticket.id == t.id }

theorem owedAfter_singleton (t : Ticket) (owed : List Owed) :
    owedAfter [t] owed = owed.map fun o => { o with answered := o.answered || o.ticket.id == t.id } := by
  simp [owedAfter]

/-- Several requests answered alike: their responses in order, and their entries answered. -/
theorem respondAll {α : Type} (l : List α) (ticket : α → Ticket) (st : Status) (p : List Byte) (s : State) :
    forEach l (fun x u => respond (ticket x) st p u) s =
      { s with
        slu :=
          { s.slu with
            responses := s.slu.responses ++ l.map fun x => { ticket := ticket x, status := st, payload := p }
            owed := owedAfter (l.map ticket) s.slu.owed } } := by
  induction l generalizing s with
  | nil => simp [owedAfter, forEach]
  | cons t l ih =>
    rw [forEach_cons, ih]
    simp [owedAfter, respond, Slu.answer, Bool.or_assoc]

/-- What SOFT RESET leaves unanswered is nothing. -/
theorem softReset_owed_answered (u : Slu) (t : Ticket) (o : Owed)
    (h : o ∈ owedAfter [t] (owedAfter (u.outstanding t) u.owed)) : o.answered = true := by
  obtain ⟨o₁, h₁, rfl⟩ := List.mem_map.mp h
  obtain ⟨x, hx, rfl⟩ := List.mem_map.mp h₁
  by_cases hopen : x.answered = false ∧ x.ticket.id ≠ t.id
  · have houtstanding : x.ticket ∈ u.outstanding t :=
      List.mem_map.mpr ⟨x, List.mem_filter.mpr ⟨hx, by simpa using hopen⟩, rfl⟩
    have hany : ((u.outstanding t).any fun a => x.ticket.id == a.id) = true :=
      List.any_eq_true.mpr ⟨x.ticket, houtstanding, beq_self_eq_true _⟩
    simp [hany]
  · rcases not_and_or.mp hopen with h | h
    · simp [Bool.not_eq_false _ ▸ h]
    · simp [not_not.mp h]

/-- Settles O53: what is outstanding is every unanswered request but SOFT RESET itself, so that afterwards every entry
of the owed list is answered. -/
theorem softResetAnswersAndResets : Obligations.SoftResetAnswersAndResets := by
  unfold Obligations.SoftResetAnswersAndResets
  intro s q rest hq
  have hexec := exec_head (c := .softReset) rfl hq
  have htickets (l : List Ticket) (owed : List Owed) : (owedAfter l owed).map (·.ticket) = owed.map (·.ticket) := by
    simp [owedAfter]
  refine ⟨owedAfter [q.ticket] (owedAfter (s.slu.outstanding q.ticket) s.slu.owed),
    hexec.trans (congrArg Host.Outcome.next ?_), (htickets _ _).trans (htickets _ _), fun o ho => ⟨?_, ?_⟩⟩
  · have hresponses : ((s.slu.outstanding q.ticket).map fun t =>
      ({ ticket := t, status := .aborted, payload := [] } : Response)) =
        (s.slu.owed.filter fun o => !o.answered && o.ticket.id != q.ticket.id).map fun o =>
          { ticket := o.ticket, status := .aborted, payload := [] } := List.map_map
    have hall := congrArg (fun u => resetBlocks (done q [] u))
      (respondAll (s.slu.outstanding q.ticket) (fun t => t) .aborted [] (taken rest s))
    simp only [List.map_id', hresponses] at hall
    rw [owedAfter_singleton]
    exact hall
  · have hmem : o.ticket ∈ s.slu.owed.map (·.ticket) :=
      (htickets _ _).trans (htickets _ _) ▸ List.mem_map_of_mem ho
    obtain ⟨x, hx, hxo⟩ := List.mem_map.mp hmem
    exact List.mem_map.mpr ⟨x, hx, congrArg Ticket.id hxo⟩
  · exact softReset_owed_answered s.slu q.ticket o ho

end Sys2Proof.Machine
end

section
/-! Requests that only read. -/

namespace Sys2Proof.Machine

set_option Elab.async false

open Sys2Proof.Claims

section
variable {s : State} {q : Request} {rest : List Request}

/-! ## ENTRY READ (R91) -/

theorem Cle.bankAt_none {u : Cle} {p : List Byte} (h : 2 ≤ byteAt p 0) : u.bankAt p = none := by
  rw [Cle.bankAt]
  split
  · omega
  · omega
  · rfl

theorem finOrNoneAt_outside {n i : Nat} {p : List Byte} (h : n ≤ byteAt p i) (hno : byteAt p i ≠ 255) :
    finOrNoneAt n p i = none := by rw [finOrNoneAt, if_neg hno, toFin_none h, Option.map_none]

theorem finOrNoneAt_inside {n i : Nat} {p : List Byte} {d : Fin n} (h : byteAt p i = d.val) (hn : n ≤ 255) :
    finOrNoneAt n p i = some (some d) := by
  rw [finOrNoneAt, if_neg (by omega), toFin_of_eq h, Option.map_some]

theorem finOrNoneAt_default {n i : Nat} {p : List Byte} (h : byteAt p i = 255) : finOrNoneAt n p i = some none := by
  rw [finOrNoneAt, if_pos h]

theorem exec_entryRead_range (hq : headIs s q rest codeEntryRead)
    (h : s.cle.bankAt q.payload = none ∨ finOrNoneAt 64 q.payload 1 = none) :
    exec .entryRead s = .next (refusedAs q rest .range s) := by
  refine (exec_head (c := .entryRead) rfl hq).trans (congrArg Host.Outcome.next ?_)
  unfold serveEntryRead
  split
  · next hb hd =>
    rcases h with h | h
    · exact absurd (h.symm.trans hb) nofun
    · exact absurd (h.symm.trans hd) nofun
  · rfl

theorem exec_entryRead_done {b : Bank} {hits : Bool} {d : Option (Fin 64)} (hq : headIs s q rest codeEntryRead)
    (hb : s.cle.bankAt q.payload = some (b, hits)) (hd : finOrNoneAt 64 q.payload 1 = some d) :
    exec .entryRead s =
      .next (answered q.ticket .done
        (b.entryBytes d ++ (if hits then num 4 (s.cle.hits[hitPlace d]'(hitPlace d).isLt) else []))
        (taken rest s)) := by
  refine (exec_head (c := .entryRead) rfl hq).trans (congrArg Host.Outcome.next ?_)
  have hb' : (taken rest s).cle.bankAt q.payload = some (b, hits) := hb
  rw [serveEntryRead, hb', hd]
  rfl

/-! ## RING READ (R146, R147) -/

theorem serveRingRead_notReady (h : s.cst.ready = false) : serveRingRead q s = refuse q .notReady s := if_pos h

theorem serveRingRead_noRing (h : s.cst.ready = true) (hi : 4 ≤ byteAt q.payload 0) :
    serveRingRead q s = refuse q .range s := by
  rw [serveRingRead, if_neg (by rw [h]; exact Bool.true_eq_false_eq_False), toFin_none hi]

theorem serveRingRead_ring {i : Fin 4} (h : s.cst.ready = true) (hi : byteAt q.payload 0 = i.val) :
    serveRingRead q s =
      if numAt q.payload 5 2 = 0 ∨ (s.cst.rings[i]'i.isLt).entries.length < numAt q.payload 1 4 then refuse q .range s
      else if (s.cst.rings[i]'i.isLt).mode = .window ∧ (s.cst.rings[i]'i.isLt).state = .frozen then
        done q ((s.cst.rings[i]'i.isLt).readPayload i (numAt q.payload 1 4) (numAt q.payload 5 2)) s
      else refuse q .state s := by
  rw [serveRingRead, if_neg (by rw [h]; exact Bool.true_eq_false_eq_False), toFin_of_eq hi]

theorem serveRingRead_noEntries (h : s.cst.ready = true) (hn : numAt q.payload 5 2 = 0) :
    serveRingRead q s = refuse q .range s := by
  by_cases hi : byteAt q.payload 0 < 4
  · exact (serveRingRead_ring (i := ⟨_, hi⟩) h rfl).trans (if_pos (.inl hn))
  · exact serveRingRead_noRing h (Nat.not_lt.mp hi)

end

/-- TIME READ carries the time base and the armed set. -/
theorem exec_timeRead {s : State} {q : Request} {rest : List Request} (hq : headIs s q rest codeTimeRead) :
    exec .timeRead s =
      .next (answered q.ticket .done
        (num 6 s.tbu.base.toNat ++ num 4 s.tbu.period ++ numSigned s.tbu.trim ++
          (match s.tbu.armed with
            | none => 0 :: List.replicate 7 0
            | some a => 1 :: (num 1 a.lane.val ++ num 6 a.value.toNat)))
        (taken rest s)) := by
  refine (exec_head (c := .timeRead) rfl hq).trans
    (congrArg (fun p => Host.Outcome.next (answered q.ticket .done p (taken rest s))) ?_)
  show s.tbu.bytes = _
  rw [Tbu.bytes]
  cases s.tbu.armed <;> rfl

/-- Settles O55: each request answers from the state at its serving; a payload that names no place is refused. -/
theorem readingRequestsChangeNothing : Obligations.ReadingRequestsChangeNothing := by
  unfold Obligations.ReadingRequestsChangeNothing
  refine ⟨fun s q rest hq => exec_timeRead hq, ?_, ?_⟩
  · rintro s q rest u rfl
    refine ⟨fun hq => exec_head (c := .identify) rfl hq, fun hq => exec_head (c := .laneStatus) rfl hq,
      fun hq => exec_head (c := .decodeRead) rfl hq, fun hq => exec_head (c := .railRead) rfl hq,
      fun hq => ⟨fun h => ?_, fun g h => ?_⟩, fun hq => ⟨fun h => ?_, fun r h => ?_⟩,
      fun hq => exec_head (c := .tableStatus) rfl hq, fun hq => ⟨fun h => ?_, fun l h => ?_⟩,
      fun hq => exec_head (c := .sequencerStatus) rfl hq, fun hq => ?_, fun hq => ⟨fun h => ?_, fun n h => ?_⟩,
      fun hq => exec_head (c := .scanStatus) rfl hq, fun hq => exec_head (c := .lineStatus) rfl hq⟩
    · rw [exec_head (c := .busStatus) rfl hq, serveBusStatus, toFin_none h]
      rfl
    · rw [exec_head (c := .busStatus) rfl hq, serveBusStatus, toFin_of_eq h]
      rfl
    · rw [exec_head (c := .consoleStatus) rfl hq, serveConsoleStatus, toFin_none h]
      rfl
    · rw [exec_head (c := .consoleStatus) rfl hq, serveConsoleStatus, toFin_of_eq h]
      rfl
    · rw [exec_head (c := .levelRead) rfl hq, serveLevelRead, toFin_none h]
      rfl
    · rw [exec_head (c := .levelRead) rfl hq, serveLevelRead, toFin_of_eq h]
      rfl
    · refine (exec_head (c := .ringStatus) rfl hq).trans (congrArg Host.Outcome.next ?_)
      show (if s.cst.ready = false then _ else _) = _
      cases s.cst.ready <;> rfl
    · rw [exec_head (c := .slotRead) rfl hq, serveSlotRead, toFin_none h]
      rfl
    · rw [exec_head (c := .slotRead) rfl hq, serveSlotRead, toFin_of_eq h]
      rfl
  · rintro s q rest u rfl
    refine ⟨fun hq => ⟨?_, ?_⟩, fun hq => ⟨fun h => ?_, fun h hno => ?_, ?_⟩⟩
    · rintro (h | ⟨h, hno⟩)
      · exact exec_entryRead_range hq (.inl (Cle.bankAt_none h))
      · exact exec_entryRead_range hq (.inr (finOrNoneAt_outside h hno))
    · intro bank hits hbank
      have hb : s.cle.bankAt q.payload = some (bank, hits) := by
        rcases hbank with ⟨h, rfl, rfl⟩ | ⟨h, rfl, rfl⟩
        · rw [Cle.bankAt, h]
          rfl
        · rw [Cle.bankAt, h]
          rfl
      exact ⟨fun i hi => exec_entryRead_done hq hb (finOrNoneAt_inside hi (by decide)),
        fun h => exec_entryRead_done hq hb (finOrNoneAt_default h)⟩
    · exact (exec_head (c := .ringRead) rfl hq).trans (congrArg Host.Outcome.next (serveRingRead_notReady h))
    · refine (exec_head (c := .ringRead) rfl hq).trans (congrArg Host.Outcome.next ?_)
      rcases hno with hi | hn
      · exact serveRingRead_noRing h hi
      · exact serveRingRead_noEntries h hn
    · rintro i r cursor most l hready hi rfl rfl rfl hmost rfl
      have hexec := (exec_head (c := .ringRead) rfl hq).trans
        (congrArg Host.Outcome.next (serveRingRead_ring (s := taken rest s) hready hi))
      refine ⟨fun h => ?_, fun h hno => ?_, fun h hmode hstate => ?_⟩
      · exact hexec.trans (congrArg Host.Outcome.next (if_pos (.inr h)))
      · have hin : ¬(numAt q.payload 5 2 = 0 ∨ (s.cst.rings[i]'i.isLt).entries.length < numAt q.payload 1 4) := by omega
        exact hexec.trans (congrArg Host.Outcome.next ((if_neg hin).trans (if_neg (not_and_or.mpr hno))))
      · have hin : ¬(numAt q.payload 5 2 = 0 ∨ (s.cst.rings[i]'i.isLt).entries.length < numAt q.payload 1 4) := by omega
        exact hexec.trans (congrArg Host.Outcome.next ((if_neg hin).trans (if_pos ⟨hmode, hstate⟩)))

end Sys2Proof.Machine
end

section
/-! Egress (R144, R145, R191, R193, R194, R197). -/

namespace Sys2Proof.Machine

set_option Elab.async false

open Sys2Proof.Claims

/-! ## The order of alert sources (R197, R198) -/

section
variable {u : Slu} {l : List (Fin 16)} {i : Fin 16}

theorem Slu.mem_ranked : i ∈ u.ranked l ↔ i ∈ l ∧ (u.alerts[i]'i.isLt).level ≤ 7 := by
  simp only [Slu.ranked, List.mem_flatMap, List.mem_reverse, List.mem_range, List.mem_filter, beq_iff_eq]
  refine ⟨fun ⟨v, hv, hi, he⟩ => ⟨hi, ?_⟩, fun ⟨hi, hv⟩ => ⟨_, Nat.lt_succ_of_le hv, hi, rfl⟩⟩
  exact Nat.le_of_lt_succ (he ▸ hv)

/-- Source i comes before source j: at a higher level, or at the same level with a lower number. -/
def Slu.before (u : Slu) (i j : Fin 16) : Prop :=
  (u.alerts[j]'j.isLt).level < (u.alerts[i]'i.isLt).level ∨
    ((u.alerts[j]'j.isLt).level = (u.alerts[i]'i.isLt).level ∧ i < j)

theorem Slu.ranked_pairwise (h : l.Pairwise (· < ·)) : (u.ranked l).Pairwise u.before := by
  refine List.pairwise_flatMap.mpr ⟨fun v _ => ?_, ?_⟩
  · refine (h.filter _).imp_of_mem fun {i j} hi hj hij => .inr ⟨?_, hij⟩
    exact (beq_iff_eq.mp (List.mem_filter.mp hj).2).trans (beq_iff_eq.mp (List.mem_filter.mp hi).2).symm
  · refine (List.pairwise_reverse.mpr (List.pairwise_lt_range (n := 8))).imp fun {v w} hvw i hi j hj => .inl ?_
    have hi := beq_iff_eq.mp (List.mem_filter.mp hi).2
    have hj := beq_iff_eq.mp (List.mem_filter.mp hj).2
    exact hj ▸ hi ▸ hvw

theorem Slu.mem_pendingAbove {level : Int} : i ∈ u.pendingAbove level ↔
    (u.alerts[i]'i.isLt).pending = true ∧ level < (u.alerts[i]'i.isLt).level := by
  simp only [Slu.pendingAbove, List.mem_filter, List.mem_finRange, true_and, Bool.and_eq_true, decide_eq_true_eq]

theorem Slu.pendingAbove_sorted (level : Int) : (u.pendingAbove level).Pairwise (· < ·) :=
  (List.pairwise_lt_finRange 16).filter _

theorem Slu.mem_announced : i ∈ u.announced ↔ (u.alerts[i]'i.isLt).pending = true ∧
    u.mask < (u.alerts[i]'i.isLt).level ∧ (u.alerts[i]'i.isLt).level ≤ 7 := by
  rw [Slu.announced, Slu.mem_ranked, Slu.mem_pendingAbove, and_assoc, Nat.cast_lt]

end

/-! ## The ring and the entries that an exporting turn takes (R144, R145) -/

/-- No front part that fits is longer than what is taken. -/
theorem takeFit_longest {words most : Nat} {es m : List Entry} (hm : m <+: es) (hmost : m.length ≤ most)
    (hwords : wordsOf m ≤ words) : m.length ≤ (takeFit words most es).length := by
  by_contra hlonger
  rw [Nat.not_le] at hlonger
  have htaken := takeFit_prefix words most es
  obtain ⟨rest, rfl⟩ := List.prefix_of_prefix_length_le htaken hm hlonger.le
  cases rest with
  | nil => exact absurd hlonger (by simp)
  | cons e rest =>
    have hnext : es[(takeFit words most es).length]? = some e := by
      obtain ⟨tail, htail⟩ := hm
      rw [List.append_assoc] at htail
      generalize takeFit words most es = l at htail
      rw [← htail]
      simp
    have := takeFit_most words most es (by omega) e hnext
    simp only [wordsOf_append, wordsOf_cons] at hwords
    omega

/-- The ring that is exported is the one that no other ring with an entry comes before. -/
theorem exportRing_eq_some_iff (c : Cst) (i : Fin 4) :
    c.exportRing = some i ↔ c.offers i ∧ ∀ j, c.offers j →
      (c.rings[j]'j.isLt).priority < (c.rings[i]'i.isLt).priority ∨
        ((c.rings[j]'j.isLt).priority = (c.rings[i]'i.isLt).priority ∧ i ≤ j) := by
  obtain ⟨hnone, hsome⟩ := exportRing_spec c
  refine ⟨fun h => ?_, fun ⟨hi, hfirst⟩ => ?_⟩
  · obtain ⟨hi, hfirst⟩ := hsome i h
    refine ⟨hi, fun j hj => ?_⟩
    obtain ⟨hle, heq⟩ := hfirst j hj
    exact (Nat.lt_or_eq_of_le hle).imp id fun h => ⟨h, heq h⟩
  · cases hx : c.exportRing with
    | none => exact absurd hi (hnone.mp hx i)
    | some x =>
      obtain ⟨hox, hx'⟩ := hsome x hx
      obtain ⟨hle, heq⟩ := hx' i hi
      rcases hfirst x hox with hlt | ⟨hpri, hix⟩
      · exact absurd hlt (Nat.not_lt.mpr hle)
      · exact congrArg some (le_antisymm (heq hpri.symm) hix)

/-! ## What egress does -/

section
variable {s : State} {b : Bool}

theorem linkEgress_free (hs : s.slu.sending = none) (hl : s.pins.linkDown = false) : linkEgress b s = egress b s :=
  if_pos ⟨hs, hl⟩

/-- A link that begins nothing leaves the responses as they are. -/
theorem egress_responseWaits {r : Response} {rest : List Response} (h : s.slu.responses = r :: rest) :
    egress false s = s := by
  rw [egress, h]
  rfl

theorem egress_alertWaits {a : LinkAddr} (h : s.slu.responses = []) (hs : s.slu.station = some a)
    (hd : s.slu.due = true) : egress false s = s := by
  rw [egress, h, hs]
  simp only [hd, if_true]
  rfl

theorem egressExport_formed {a : LinkAddr} {f : OutFrame} (h : s.slu.formed = some f) :
    egressExport false a s = s ∧
      egressExport true a s = { s with slu := { s.slu with sending := some f, formed := none } } := by
  simp [egressExport, h, Slu.beginExport]

theorem egressExport_none {a : LinkAddr} (hf : s.slu.formed = none) (h : s.cst.exportRing = none) :
    egressExport b a s = s := by
  simp [egressExport, formExport, hf, h]

theorem formExport_ring {a : LinkAddr} {i : Fin 4} (h : s.cst.exportRing = some i) :
    formExport a s =
      { setRing i (s.cst.rings[i]'i.isLt).afterExport s with
        slu :=
          { s.slu with
            formed := some (s.slu.exportFrame a ((s.cst.rings[i]'i.isLt).exportPayload i))
            exportCount := s.slu.exportCount + 1 } } := by
  rw [formExport, h]
  rfl

/-- The Capture Store forms a frame, and the link begins it or not. -/
theorem egressExport_ring {a : LinkAddr} {i : Fin 4} (hf : s.slu.formed = none) (h : s.cst.exportRing = some i) :
    egressExport false a s = formExport a s ∧
      egressExport true a s = { formExport a s with slu := (formExport a s).slu.beginExport } := by
  have hformed : (formExport a s).slu.formed.isSome = true := by
    rw [formExport_ring h]
    rfl
  unfold egressExport
  simp only [hf, hformed, Option.isSome_none, Bool.false_eq_true, if_false, false_and, and_self, if_true]

theorem announce_empty {u : Slu} (a : LinkAddr) (h : u.announced = []) : u.announce a = { u with due := false } :=
  if_pos (List.isEmpty_iff.mpr h)

theorem announce_frame {u : Slu} (a : LinkAddr) (h : u.announced ≠ []) :
    u.announce a = { u with due := false, alertCount := u.alertCount + 1, sending := some (u.alertFrame a) } :=
  if_neg fun hempty => h (List.isEmpty_iff.mp hempty)

theorem frameSent_waits (h : s.slu.sending = none ∨ s.pins.linkDown = true) : frameSent s = s := by
  unfold frameSent
  split
  · next f hf =>
    rcases h with h | h
    · exact absurd (h.symm.trans hf) nofun
    · exact if_pos h
  · rfl

theorem frameSent_sent {f : OutFrame} (h : s.slu.sending = some f) (hl : s.pins.linkDown = false) :
    frameSent s =
      { s with
        slu :=
          { s.slu with
            sending := none, owed := s.slu.owed.filter fun o => decide (some o.ticket.id ≠ f.answers) } } := by
  have other_iff (o : Owed) : (some o.ticket.id != f.answers) = decide (some o.ticket.id ≠ f.answers) := by
    rw [Bool.eq_iff_iff, bne_iff_ne, decide_eq_true_eq]
  rw [frameSent, h]
  refine (if_neg (by rw [hl]; exact Bool.false_ne_true)).trans ?_
  simp only [Slu.sent, other_iff]

end

/-- Settles O51: each turn of egress by what is waiting, the responses, a due announcement, a formed frame, a ring. -/
theorem egressSendsInOrder : Obligations.EgressSendsInOrder := by
  unfold Obligations.EgressSendsInOrder
  refine ⟨fun u => ⟨fun i => Slu.mem_announced, Slu.ranked_pairwise (Slu.pendingAbove_sorted _)⟩, ?_, fun s =>
    ⟨?_, fun down => rfl, fun h b => congrArg Host.Outcome.next (linkEgress_waits b s h), fun hs hl => ?_,
      fun h => congrArg Host.Outcome.next (frameSent_waits h),
      fun f h hl => congrArg Host.Outcome.next (frameSent_sent h hl)⟩⟩
  · rintro words most es l rfl
    exact ⟨takeFit_prefix _ _ _, (takeFit_fits _ _ _).2, (takeFit_fits _ _ _).1, fun m => takeFit_longest⟩
  · rintro qualifies rfl
    exact ⟨(exportRing_spec s.cst).1, exportRing_eq_some_iff s.cst⟩
  · have turn {b : Bool} {t : State} (h : egress b s = t) : exec (.linkEgress b) s = .next t :=
      congrArg Host.Outcome.next ((linkEgress_free hs hl).trans h)
    refine ⟨fun r l hr => ⟨turn (egress_responseWaits hr), turn (egress_response s r l hr)⟩,
      fun hr ha b => turn (egress_noStation b s hr ha),
      fun a hr ha hd => ⟨turn (egress_alertWaits hr ha hd), fun h => ?_, fun h => ?_⟩, ?_, ?_⟩
    · refine turn ((egress_alert s a hr ha hd).trans ?_)
      rw [announce_empty a h]
    · refine turn ((egress_alert s a hr ha hd).trans ?_)
      rw [announce_frame a h]
      rfl
    · intro a f hr ha hd hf
      obtain ⟨hwait, hbegin⟩ := egressExport_formed (a := a) hf
      exact ⟨turn ((egress_export false s a hr ha hd).trans hwait),
        turn ((egress_export true s a hr ha hd).trans hbegin)⟩
    · intro a hr ha hd hf
      refine ⟨fun h b => turn ((egress_export b s a hr ha hd).trans (egressExport_none hf h)), ?_⟩
      rintro i r l f hi rfl rfl rfl t rfl
      obtain ⟨hwait, hbegin⟩ := egressExport_ring (a := a) hf hi
      rw [formExport_ring hi] at hwait hbegin
      exact ⟨turn ((egress_export true s a hr ha hd).trans hbegin),
        turn ((egress_export false s a hr ha hd).trans hwait)⟩

end Sys2Proof.Machine
end

section
/-! Alerts (R195–R199). -/

namespace Sys2Proof.Machine

set_option Elab.async false

open Sys2Proof.Claims

/-! ## The levels of ALERT CONFIG (R196) -/

section
variable {p : List Byte} {u : Slu}

theorem alertLevels_within_iff :
    ((((List.range 16).map (byteAt p)).all fun l => decide (l ≤ 7)) = true ∧ byteAt p 16 ≤ 7) ↔
      ∀ i ≤ 16, byteAt p i ≤ 7 := by
  simp only [List.all_map, List.all_eq_true, List.mem_range, Function.comp_apply, decide_eq_true_eq]
  refine ⟨fun ⟨h, hmask⟩ i hi => ?_, fun h => ⟨fun i hi => h i hi.le, h 16 le_rfl⟩⟩
  rcases Nat.lt_or_eq_of_le hi with hi | rfl
  · exact h i hi
  · exact hmask

theorem alertLevelsAt_within (h : ∀ i ≤ 16, byteAt p i ≤ 7) :
    alertLevelsAt p = some ((List.range 16).map (byteAt p), min 6 (byteAt p 16)) :=
      if_pos (alertLevels_within_iff.mpr h)

theorem alertLevelsAt_outside (h : ∃ i ≤ 16, 8 ≤ byteAt p i) : alertLevelsAt p = none := by
  obtain ⟨i, hi, hover⟩ := h
  exact if_neg fun hall => absurd (alertLevels_within_iff.mp hall i hi) (Nat.not_le.mpr hover)

theorem alertLevel_getD (i : Fin 16) : ((List.range 16).map (byteAt p)).getD i.val 0 = byteAt p i.val := by
  simp [List.getD_eq_getElem?_getD]

/-- The announcement due after ALERT CONFIG: due before, or a pending source uncovered by a lower mask. -/
theorem configureAlerts_due (m : Nat) :
    (u.configureAlerts ((List.range 16).map (byteAt p)) m).due = true ↔ u.due = true ∨ (m < u.mask ∧
      ∃ i : Fin 16, (u.alerts[i]'i.isLt).pending = true ∧ m < byteAt p i.val ∧ byteAt p i.val ≤ u.mask) := by
  simp only [Slu.configureAlerts, alertLevel_getD, Bool.or_eq_true, Bool.and_eq_true, decide_eq_true_eq,
    List.any_eq_true,
    List.mem_finRange, true_and, and_assoc]

end

/-! ## What ALERT NEXT names (R198) -/

section
variable {u : Slu}

theorem Slu.mem_pending {i : Fin 16} : i ∈ u.pendingAbove (-1) ↔ (u.alerts[i]'i.isLt).pending = true := by
  rw [Slu.mem_pendingAbove]
  exact and_iff_left (by omega)

theorem Slu.nextBytes_none (h : ∀ i : Fin 16, (u.alerts[i]'i.isLt).pending = false) : u.nextBytes = [0, 0, 0] := by
  have hnil : u.pendingAbove (-1) = [] :=
    List.eq_nil_iff_forall_not_mem.mpr fun i hi => Bool.false_ne_true ((h i).symm.trans (Slu.mem_pending.mp hi))
  have hranked : u.ranked [] = [] := rfl
  rw [Slu.nextBytes, hnil]
  simp only [hranked]
  rfl

/-- The first of the ranked sources is the one that every other comes after. -/
theorem Slu.ranked_head {i : Fin 16} (hlevels : ∀ j : Fin 16, (u.alerts[j]'j.isLt).level ≤ 7)
    (hi : (u.alerts[i]'i.isLt).pending = true)
    (hfirst : ∀ j : Fin 16, (u.alerts[j]'j.isLt).pending = true →
      (u.alerts[j]'j.isLt).level < (u.alerts[i]'i.isLt).level ∨
        ((u.alerts[j]'j.isLt).level = (u.alerts[i]'i.isLt).level ∧ i ≤ j)) :
    ∃ l, u.ranked (u.pendingAbove (-1)) = i :: l := by
  have hmem : i ∈ u.ranked (u.pendingAbove (-1)) := Slu.mem_ranked.mpr ⟨Slu.mem_pending.mpr hi, hlevels i⟩
  have hsorted := Slu.ranked_pairwise (u := u) (u.pendingAbove_sorted (-1))
  cases hl : u.ranked (u.pendingAbove (-1)) with
  | nil =>
    rw [hl] at hmem
    cases hmem
  | cons x l =>
    refine ⟨l, ?_⟩
    rw [hl] at hmem hsorted
    rcases List.mem_cons.mp hmem with rfl | hil
    · rfl
    · have hx : x ∈ u.ranked (u.pendingAbove (-1)) := hl ▸ List.mem_cons_self
      have hxi : u.before x i := (List.pairwise_cons.mp hsorted).1 i hil
      have hix := hfirst x (Slu.mem_pending.mp (Slu.mem_ranked.mp hx).1)
      unfold Slu.before at hxi
      omega

theorem Slu.nextBytes_first {i : Fin 16} {l : List (Fin 16)} (h : u.ranked (u.pendingAbove (-1)) = i :: l) :
    u.nextBytes = num 1 (i.val + 1) ++ num 1 (u.alerts[i]'i.isLt).level ++
      num 1 ((List.finRange 16).filter fun j => (u.alerts[j]'j.isLt).pending).length := by
  have hcount : u.pendingAbove (-1) = (List.finRange 16).filter fun j => (u.alerts[j]'j.isLt).pending := by
    refine List.filter_congr fun j _ => ?_
    rw [decide_eq_true (by omega), Bool.and_true]
  rw [← hcount, Slu.nextBytes]
  simp only [h]
  rfl

end

/-- An alert set: pending, and due if that is new and its level lies above the mask. -/
theorem setAlert_eq (a : AlertSource) (s : State) :
    setAlert a s =
      { s with
        slu :=
          { s.slu with
            alerts := put s.slu.alerts a.index { s.slu.alerts[a.index]'a.index.isLt with pending := true }
            due := s.slu.due || decide ((s.slu.alerts[a.index]'a.index.isLt).pending = false ∧
              s.slu.mask < (s.slu.alerts[a.index]'a.index.isLt).level) } } := by
  have hnew (x : Bool) (c : Prop) [Decidable c] : (!x && decide c) = decide (x = false ∧ c) := by cases x <;> simp
  rw [← hnew]
  rfl

/-- Settles O52: each request from what the model's list of sources gives. -/
theorem alertsPendAnnounceAndClear : Obligations.AlertsPendAnnounceAndClear := by
  unfold Obligations.AlertsPendAnnounceAndClear
  refine ⟨?_, fun s q rest hq => ⟨fun h => ?_, ?_⟩, fun s q rest hq => ?_, fun s q rest hq hlevels => ⟨fun h => ?_, ?_⟩⟩
  · rintro s a i rfl
    exact setAlert_eq a s
  · rw [exec_head (c := .alertConfig) rfl hq, serveAlertConfig, alertLevelsAt_outside h]
    rfl
  · rintro h m rfl
    have hexec := exec_head (c := .alertConfig) rfl hq
    have hbytes : ((List.range 16).map (byteAt q.payload)).flatMap (num 1) =
      (List.range 16).flatMap fun i => num 1 (byteAt q.payload i) := List.flatMap_map ..
    rw [serveAlertConfig, alertLevelsAt_within h] at hexec
    simp only [hbytes] at hexec
    refine ⟨_, _, hexec, fun i => ?_, configureAlerts_due _⟩
    refine (mapEach_get _ _ i).trans ?_
    rw [alertLevel_getD]
    rfl
  · exact ⟨_, exec_head (c := .alertClear) rfl hq, fun i => mapEach_get _ _ i⟩
  · exact (exec_head (c := .alertNext) rfl hq).trans
      (congrArg (fun p => Host.Outcome.next (answered q.ticket .done p (taken rest s))) (Slu.nextBytes_none h))
  · intro i hi hfirst
    obtain ⟨l, hl⟩ := Slu.ranked_head hlevels hi hfirst
    exact (exec_head (c := .alertNext) rfl hq).trans
      (congrArg (fun p => Host.Outcome.next (answered q.ticket .done p (taken rest s))) (Slu.nextBytes_first hl))

end Sys2Proof.Machine
end

section
/-! SCAN ABORT, SCAN CONFIG, SLOT LOAD and injections (8.9, 8.10). -/

namespace Sys2Proof.Machine

set_option Elab.async false

open Sys2Proof.Claims

/-! ## The flush (R156, R164) -/

/-- A slot as a flush leaves it. -/
def Slot.flushed (x : Slot) : Slot :=
  if x.state = .queued then { x with state := .aborted, result := some { outcome := .aborted, tdo := [] } } else x

/-- A flush answers the queue in its order and ends what is QUEUED, and touches nothing else. -/
theorem flush_eq (s : State) :
    flush s =
      { s with
        slu :=
          { s.slu with
            responses := s.slu.responses ++
              s.sce.queue.map fun q => { ticket := q.ticket, status := .aborted, payload := [0, 0] }
            owed := owedAfter (s.sce.queue.map (·.ticket)) s.slu.owed }
        sce := { s.sce with queue := [], slots := mapAll Slot.flushed s.sce.slots } } := by
  rw [flush, respondAll]
  rfl

theorem flush_slot (s : State) (n : Fin 4) :
    (flush s).sce.slots[n]'n.isLt = Slot.flushed (s.sce.slots[n]'n.isLt) := by
  rw [flush_eq]
  exact mapAll_get _ _ n

theorem Slot.flushed_notQueued (x : Slot) : x.flushed.state ≠ .queued := by
  unfold Slot.flushed
  split
  · exact nofun
  · assumption

/-! ## SCAN CONFIG and SLOT LOAD (R152, R167) -/

section
variable {s : State} {q : Request} {rest : List Request}

/-- The lane of SCAN CONFIG, or NONE. -/
theorem finOrNoneAt_lane {p : List Byte} {i : Nat} {lane : Option (Fin 16)}
    (h : byteAt p i = match lane with | none => 255 | some j => j.val) : finOrNoneAt 16 p i = some lane := by
  cases lane with
  | none => exact finOrNoneAt_default h
  | some j => exact finOrNoneAt_inside h (by decide)

theorem serveScanConfig_range
    (h : 8 ≤ byteAt q.payload 0 ∨ (16 ≤ byteAt q.payload 2 ∧ byteAt q.payload 2 ≠ 255) ∨ 2 ≤ byteAt q.payload 3) :
    serveScanConfig q s = refuse q .range s := by
  unfold serveScanConfig
  split
  · next hk hlane hlevel =>
    rcases h with h | ⟨h, hno⟩ | h
    · exact absurd ((toFin_none h).symm.trans hk) nofun
    · exact absurd ((finOrNoneAt_outside h hno).symm.trans hlane) nofun
    · exact absurd ((flagAt_none h).symm.trans hlevel) nofun
  · rfl

theorem serveScanConfig_checked {k : Fin 8} {lane : Option (Fin 16)} {level : Bool} (hk : byteAt q.payload 0 = k.val)
    (hlane : finOrNoneAt 16 q.payload 2 = some lane) (hlevel : byteAt q.payload 3 = if level then 1 else 0) :
    serveScanConfig q s =
      if s.sce.phase ≠ .free ∨ s.sce.queue ≠ [] then refuse q .state s
      else if (lane.any fun i => (s.stu.lanes[i]'i.isLt).mode != .sense) = true then refuse q .state s
      else done q []
        { s with
          sce := { s.sce with rate := k, timeout := byteAt q.payload 1, powerLane := lane, powerLevel := level } } := by
  rw [serveScanConfig, toFin_of_eq hk, hlane, flagAt_of_eq hlevel]

theorem serveSlotLoad_range (h : 4 ≤ byteAt q.payload 0 ∨ scanAt q.payload 1 = none) :
    serveSlotLoad q s = refuse q .range s := by
  unfold serveSlotLoad
  split
  · next hn hc =>
    rcases h with h | h
    · exact absurd ((toFin_none h).symm.trans hn) nofun
    · exact absurd (h.symm.trans hc) nofun
  · rfl

theorem serveSlotLoad_slot {n : Fin 4} {c : Scan} (hn : byteAt q.payload 0 = n.val) (hc : scanAt q.payload 1 = some c) :
    serveSlotLoad q s =
      if (s.sce.slots[n]'n.isLt).state = .queued ∨ (s.sce.slots[n]'n.isLt).state = .running then refuse q .busy s
      else done q []
        { s with
          sce := { s.sce with slots := put s.sce.slots n { state := .loaded, scan := some c, result := none } } } := by
  rw [serveSlotLoad, toFin_of_eq hn, hc]

end

/-! ## The two modes of SCAN ABORT (R164–R166) -/

/-- A byte that names no mode is refused by the row of either mode. -/
theorem exec_scanAbort_range {s : State} {q : Request} {rest : List Request} (hq : headIs s q rest codeScanAbort)
    (h : 2 ≤ byteAt q.payload 0) :
    exec .scanAbortBoundary s = .next (refusedAs q rest .range s) ∧
      exec .scanAbortImmediate s = .next (refusedAs q rest .range s) := by
  have hboundary := exec_head_when (c := .scanAbortBoundary) rfl hq (modeFits_above _ _ _ _ h)
  have himmediate := exec_head_when (c := .scanAbortImmediate) rfl hq (modeFits_above _ _ _ _ h)
  exact ⟨hboundary.trans (congrArg Host.Outcome.next (if_neg (by omega))),
    himmediate.trans (congrArg Host.Outcome.next (if_neg (by omega)))⟩

/-- Settles O45: the flush slot by slot, and each request by its checks. -/
theorem scanAbortConfigAndSlots : Obligations.ScanAbortConfigAndSlots := by
  unfold Obligations.ScanAbortConfigAndSlots
  refine ⟨fun s q rest hq => ⟨exec_scanAbort_range hq, fun h => ?_, fun h => ⟨_, rfl, ?_⟩, ?_⟩, fun s q rest =>
    ⟨fun hq => ⟨fun h => ?_, ?_⟩, fun hq => ⟨fun h => ?_, ?_⟩, fun n => ⟨fun h => ?_, fun h => ?_⟩⟩⟩
  · exact (exec_head_when (c := .scanAbortBoundary) rfl hq (modeFits_own _ _ _ _ h)).trans
      (congrArg Host.Outcome.next (if_pos h))
  · refine (exec_head_when (c := .scanAbortImmediate) rfl hq (modeFits_own _ _ _ _ h)).trans
      (congrArg Host.Outcome.next ((if_pos h).trans ?_))
    rw [flush_eq]
    rfl
  · rintro t rfl
    have hslots := flush_slot s
    rw [flush_eq] at hslots ⊢
    exact ⟨rfl, rfl, rfl, rfl, rfl, rfl, rfl, hslots⟩
  · exact (exec_head (c := .scanConfig) rfl hq).trans (congrArg Host.Outcome.next (serveScanConfig_range h))
  · intro k lane level hk hlane hlevel
    have hexec := (exec_head (c := .scanConfig) rfl hq).trans
      (congrArg Host.Outcome.next (serveScanConfig_checked (s := taken rest s) hk (finOrNoneAt_lane hlane) hlevel))
    refine ⟨fun h => ?_, fun hphase hqueue hsense => ?_⟩
    · by_cases hbusy : s.sce.phase ≠ .free ∨ s.sce.queue ≠ []
      · exact hexec.trans (congrArg Host.Outcome.next (if_pos hbusy))
      · obtain ⟨i, rfl, hoff⟩ := (or_assoc.mpr h).resolve_left hbusy
        have hno : ((some i).any fun i => (s.stu.lanes[i]'i.isLt).mode != .sense) = true := by
          rw [Option.any_some, bne_iff_ne, hoff]
          exact nofun
        exact hexec.trans (congrArg Host.Outcome.next ((if_neg hbusy).trans (if_pos hno)))
    · have hno : ¬(lane.any fun i => (s.stu.lanes[i]'i.isLt).mode != .sense) = true := by
        cases lane with
        | none => exact nofun
        | some i =>
          rw [Option.any_some, bne_iff_ne, not_not]
          exact hsense i rfl
      exact hexec.trans (congrArg Host.Outcome.next
        ((if_neg (not_or.mpr ⟨not_not.mpr hphase, not_not.mpr hqueue⟩)).trans (if_neg hno)))
  · exact (exec_head (c := .slotLoad) rfl hq).trans (congrArg Host.Outcome.next (serveSlotLoad_range h))
  · intro n c hn hc
    have hexec := (exec_head (c := .slotLoad) rfl hq).trans
      (congrArg Host.Outcome.next (serveSlotLoad_slot (s := taken rest s) hn hc))
    exact ⟨fun h => hexec.trans (congrArg Host.Outcome.next (if_pos h)),
      fun hqueued hrunning => hexec.trans (congrArg Host.Outcome.next (if_neg (not_or.mpr ⟨hqueued, hrunning⟩)))⟩
  · unfold injectScan
    rcases h with h | h | h
    · simp only [h]
    · simp only [h]
    · simp only [h]
  · unfold injectScan
    rcases h with h | h | h | h
    · simp only [h]
    · simp only [h]
    · simp only [h]
    · simp only [h]

end Sys2Proof.Machine
end

section
/-! The ends of a scan that has driven clocks, and its faults (8.4, 8.7, R160–R166). -/

namespace Sys2Proof.Machine

set_option Elab.async false

open Sys2Proof.Claims

section
variable {s : State} {u : Sce} {r : Running}

/-! ## When an end is due (R151, R160, R165) -/

theorem Sce.drives_iff : u.drives = true ↔ u.phase = .shift ∨ u.phase = .aborting := by
  simp only [Sce.drives, Bool.or_eq_true, beq_iff_eq]

theorem scanComplete_ends (hr : s.sce.running = some r) (hplan : r.plan = []) (hf : s.sce.followed = true)
    (hp : s.sce.phase = .shift) (hshort : r.stoppedShort = false) :
    scanComplete s = arbitrate (endDriven r r.scan.endState .scanDone .none .done s) := by
  have hdue : s.sce.completeDue = true := by simp [Sce.completeDue, hr, hplan, hf, hp, hshort]
  rw [scanComplete, if_pos hdue, hr]

theorem abortPauseReached_ends (hr : s.sce.running = some r) (hplan : r.plan = []) (hf : s.sce.followed = true)
    (h : s.sce.phase = .aborting ∨ (s.sce.phase = .shift ∧ r.stoppedShort = true)) :
    abortPauseReached s = arbitrate (endDriven r r.scan.abortState .scanFail .aborted .aborted s) := by
  have hdue : s.sce.abortDue = true := by
    rcases h with hp | ⟨hp, hshort⟩
    · simp [Sce.abortDue, Sce.drives, hr, hplan, hf, hp]
    · simp [Sce.abortDue, Sce.drives, hr, hplan, hf, hp, hshort]
  rw [abortPauseReached, if_pos hdue, hr]

theorem Sce.timeoutDue_iff (hd : u.phase = .shift ∨ u.phase = .aborting) :
    u.timeoutDue = true ↔ 1 ≤ u.timeout ∧ u.followed = false ∧ 125 * u.timeout ≤ u.edgeClocks := by
  simp only [Sce.timeoutDue, Sce.drives_iff.mpr hd, Bool.true_and, Bool.and_eq_true, decide_eq_true_eq,
    Bool.not_eq_true',
    and_assoc]
  exact Iff.rfl

/-- Without an end due, the rows of the ends change nothing. -/
theorem scanComplete_notDue (h : s.sce.completeDue = false) : scanComplete s = s := if_neg (Bool.eq_false_iff.mp h)

theorem abortPauseReached_notDue (h : s.sce.abortDue = false) : abortPauseReached s = s :=
  if_neg (Bool.eq_false_iff.mp h)

theorem returnClockTimeout_notDue (h : s.sce.timeoutDue = false) : returnClockTimeout s = s :=
  if_neg (Bool.eq_false_iff.mp h)

/-! ## What an end writes (R160, R161, R168) -/

theorem slotEnd_eq (st : Status) :
    slotEnd st = if st = .done then .done else if st = .aborted then .aborted else .failed := by
  cases st <;> rfl

theorem slotEnd_notQueued (st : Status) : slotEnd st ≠ .queued := by
  cases st <;> exact nofun

theorem concludeScan_eq (o : ScanOrigin) (st : Status) (tdo : List Bool) (s : State) :
    concludeScan o st tdo s =
      match o with
      | .station t => answered t st (num 2 tdo.length ++ packBits tdo) s
      | .slot n =>
        { s with
          sce :=
            { s.sce with
              slots := put s.sce.slots n
                { s.sce.slots[n]'n.isLt with
                  state := if st = .done then .done else if st = .aborted then .aborted else .failed
                  result := some { outcome := st, tdo := tdo } } } } := by
  rw [← slotEnd_eq]
  cases o <;> rfl

theorem scanFault_eq (hr : s.sce.running = some r) (st : Status) (why : ScanReason) :
    scanFault st why s =
      setAlert .scanFault (flush (concludeScan r.origin st r.tdo
        (produce (scanRecord (fun _ => .scanFail) r.scan why r.tdo s.now)
          { s with sce := { s.sce.freed with tracked := .unknown } }))) := by
  rw [scanFault, hr]

theorem produce_responses (x : Record) (s : State) : (produce x s).slu.responses = s.slu.responses := by
  unfold produce
  dsimp only
  split <;> rfl

/-- A fault ends the scan of its origin, flushes what waits and produces one record. -/
theorem scanFault_fields (st : Status) (why : ScanReason) (hr : s.sce.running = some r) {t : State}
    (ht : t = scanFault st why s) :
    t.sce = { s.sce with
      phase := .free, running := none, tck := false, tracked := .unknown, queue := []
      slots := mapAll Slot.flushed
        (match r.origin with
          | .station _ => s.sce.slots
          | .slot n => put s.sce.slots n
            { s.sce.slots[n]'n.isLt with state := slotEnd st, result := some { outcome := st, tdo := r.tdo } }) } ∧
    t.slu.responses = s.slu.responses ++
      (match r.origin with
        | .station q => [{ ticket := q, status := st, payload := num 2 r.tdo.length ++ packBits r.tdo }]
        | .slot _ => []) ++
      s.sce.queue.map (fun q => { ticket := q.ticket, status := .aborted, payload := [0, 0] }) ∧
    (t.slu.alerts[4]'(by decide)).pending = true ∧
    t.hold = (produce (scanRecord (fun _ => .scanFail) r.scan why r.tdo s.now) s).hold ∧
    t.stu = s.stu ∧ t.dcu = s.dcu ∧ t.tsq = s.tsq ∧ t.cst = s.cst ∧ t.cle = s.cle := by
  subst ht
  rw [scanFault_eq hr, flush_eq]
  cases r.origin with
  | station q =>
    refine ⟨rfl, ?_, ?_, rfl, rfl, rfl, rfl, rfl, rfl⟩
    · exact congrArg (fun l => l ++ [_] ++ _) (produce_responses _ _)
    · exact congrArg Alert.pending (put_get_self _ AlertSource.scanFault.index _)
  | slot n =>
    refine ⟨rfl, ?_, ?_, rfl, rfl, rfl, rfl, rfl, rfl⟩
    · refine congrArg (· ++ _) ((produce_responses _ _).trans (List.append_nil _).symm)
    · exact congrArg Alert.pending (put_get_self _ AlertSource.scanFault.index _)

/-- Each slot after a fault: the scan's own with its result, the others as the flush leaves them. -/
theorem scanFault_slot (o : ScanOrigin) (st : Status) (tdo : List Bool) (v : Vector Slot 4) (n : Fin 4) :
    (mapAll Slot.flushed
      (match o with
        | .station _ => v
        | .slot n =>
          put v n { v[n]'n.isLt with
            state := slotEnd st, result := some { outcome := st, tdo := tdo } }))[n]'n.isLt =
      if o = .slot n then
        { v[n]'n.isLt with
          state := if st = .done then .done else if st = .aborted then .aborted else .failed
          result := some { outcome := st, tdo := tdo } }
      else if (v[n]'n.isLt).state = .queued then
        { v[n]'n.isLt with state := .aborted, result := some { outcome := .aborted, tdo := [] } }
      else v[n]'n.isLt := by
  refine (mapAll_get _ _ n).trans ?_
  cases o with
  | station q => exact (if_neg nofun).symm
  | slot m =>
    by_cases hm : m = n
    · subst hm
      rw [if_pos rfl, ← slotEnd_eq]
      exact (congrArg Slot.flushed (put_get_self _ _ _)).trans (if_neg (slotEnd_notQueued st))
    · rw [if_neg (fun h => hm (ScanOrigin.slot.inj h))]
      exact congrArg Slot.flushed (put_get_ne _ _ _ _ hm)

end

/-- Settles O44: an end is due by the engine's phase, its plan and RCLK; the faults end and flush in one way. -/
theorem scanEndsAndFaults : Obligations.ScanEndsAndFaults := by
  unfold Obligations.ScanEndsAndFaults
  refine ⟨fun s r hr hplan => ?_, fun s =>
    ⟨fun hd => ⟨fun ht hf he => ?_, fun h => ?_⟩, fun i hi hd => ?_, fun hp => ?_,
    fun r st why t hr ht => ?_, fun i hi hp => ?_, fun i => scanPowerEdge_other i _ (.inr rfl),
    fun i level hi => scanPowerEdge_other i level (.inl hi)⟩⟩
  · refine ⟨fun hf => ?_, fun hf hp hshort => ?_, fun hf h => ?_⟩
    · obtain ⟨hcomplete, habort⟩ := noEnd_unfollowed s.sce hf
      exact ⟨congrArg Host.Outcome.next (scanComplete_notDue hcomplete),
        congrArg Host.Outcome.next (abortPauseReached_notDue habort)⟩
    · exact congrArg Host.Outcome.next ((scanComplete_ends hr hplan hf hp hshort).trans
        (congrArg arbitrate (concludeScan_eq ..)))
    · exact congrArg Host.Outcome.next ((abortPauseReached_ends hr hplan hf h).trans
        (congrArg arbitrate (concludeScan_eq ..)))
  · exact congrArg Host.Outcome.next (if_pos ((Sce.timeoutDue_iff hd).mpr ⟨ht, hf, he⟩))
  · refine congrArg Host.Outcome.next (if_neg fun hdue => ?_)
    obtain ⟨ht, hf, he⟩ := (Sce.timeoutDue_iff hd).mp hdue
    rcases h with h | h | h
    · omega
    · exact Bool.false_ne_true (hf.symm.trans h)
    · omega
  · exact scanPowerEdge_driving i _ hi (Bool.not_ne_self _) (Sce.drives_iff.mpr hd)
  · have hidle : s.sce.drives = false := by rw [Sce.drives, hp]; rfl
    obtain ⟨-, -, htimeout, habort, hcomplete⟩ := noEvent_of_not_drives s.sce hidle
    exact ⟨congrArg Host.Outcome.next (scanComplete_notDue hcomplete),
      congrArg Host.Outcome.next (abortPauseReached_notDue habort),
      congrArg Host.Outcome.next (returnClockTimeout_notDue htimeout)⟩
  · obtain ⟨hsce, hresponses, halert, hhold, hstu, hdcu, htsq, hcst, hcle⟩ := scanFault_fields st why hr ht
    have hslot (n : Fin 4) := (congrArg (fun u : Sce => u.slots[n]'n.isLt) hsce).trans
      (scanFault_slot r.origin st r.tdo s.sce.slots n)
    have hnotQueued (n : Fin 4) : (t.sce.slots[n]'n.isLt).state ≠ .queued := by
      rw [hsce]
      exact (congrArg Slot.state (mapAll_get _ _ n)).trans_ne (Slot.flushed_notQueued _)
    refine ⟨?_, ?_, ?_, ?_, ?_, ?_, ?_, hnotQueued, hslot, halert, hresponses, ?_, hstu, hdcu, htsq, hcst, hcle⟩
    · rw [hsce]
    · rw [hsce]
    · rw [hsce]
    · rw [hsce]
    · rw [hsce]
    · rw [hsce]
    · rw [hsce]
    · rw [hhold]
      exact put_get_self _ _ _
  · have hstill : s.sce.drives = false := by rcases hp with hp | hp <;> (rw [Sce.drives, hp]; rfl)
    exact scanPowerEdge_still i _ hi (Bool.not_ne_self _) hstill

end Sys2Proof.Machine
end

section
/-! SCAN SUBMIT, the arbiter, and the verdict on a scan in GUARD (8.3, 8.6, R155–R159, R166). -/

namespace Sys2Proof.Machine

set_option Elab.async false

open Sys2Proof.Claims

/-! ## The scan a payload carries (R155, 11.2) -/

theorem foldl_bytes_lt (l : List Byte) (a : Nat) :
    l.foldl (fun acc b => acc * 256 + b.toNat) a < (a + 1) * 256 ^ l.length := by
  induction l generalizing a with
  | nil => exact (Nat.lt_succ_self a).trans_eq (Nat.mul_one _).symm
  | cons b l ih =>
    have hb : a * 256 + b.toNat + 1 ≤ (a + 1) * 256 := by
      have := b.isLt
      omega
    calc (b :: l).foldl (fun acc b => acc * 256 + b.toNat) a
        < (a * 256 + b.toNat + 1) * 256 ^ l.length := ih _
      _ ≤ (a + 1) * 256 * 256 ^ l.length := Nat.mul_le_mul_right _ hb
      _ = (a + 1) * 256 ^ (b :: l).length := by rw [List.length_cons, Nat.pow_succ', Nat.mul_assoc]

theorem numAt_lt (p : List Byte) (i n : Nat) : numAt p i n < 256 ^ n :=
  calc numAt p i n < (0 + 1) * 256 ^ ((p.drop i).take n).length := foldl_bytes_lt _ 0
    _ ≤ 1 * 256 ^ n := Nat.mul_le_mul_left _ (Nat.pow_le_pow_right (by decide) (List.length_take_le ..))
    _ = 256 ^ n := Nat.one_mul _

theorem bitsOf_length (l : List Byte) (n : Nat) : (bitsOf l n).length = n := by
  rw [bitsOf, List.length_map, List.length_range]

theorem validScan_of_scanAt {p : List Byte} {i : Nat} {c : Scan} (h : scanAt p i = some c) : validScan c := by
  unfold scanAt at h
  dsimp only at h
  split at h
  · next hc =>
    obtain rfl := Option.some.inj h
    exact ⟨hc.2.2.1, hc.2.2.2.1, bitsOf_length _ _⟩
  split at h
  · next hc =>
    obtain rfl := Option.some.inj h
    exact ⟨hc.2.2.1, hc.2.2.2.1, bitsOf_length _ _⟩
  split at h
  · obtain rfl := Option.some.inj h
    exact ⟨rfl, rfl, rfl⟩
  split at h
  · next hc =>
    obtain rfl := Option.some.inj h
    exact ⟨hc.2.2.1, Nat.le_of_lt_succ (numAt_lt p (i + 2) 2), rfl, rfl⟩
  · cases h

/-! ## The scan the arbiter takes (R157) -/

section
variable {s : State} {u : Sce} {c : Scan}

theorem Sce.queuedSlot_none (h : ∀ n : Fin 4, (u.slots[n]'n.isLt).state ≠ .queued) : u.queuedSlot = none :=
  List.findSome?_eq_none_iff.mpr fun n _ => if_neg (h n)

/-- The QUEUED slot of the lowest number. -/
theorem Sce.queuedSlot_first {n : Fin 4} (hn : (u.slots[n]'n.isLt).state = .queued)
    (hc : (u.slots[n]'n.isLt).scan = some c)
    (hfirst : ∀ m < n, (u.slots[m]'m.isLt).state ≠ .queued) : u.queuedSlot = some (n, c) := by
  obtain ⟨l₁, l₂, hl⟩ := List.append_of_mem (List.mem_finRange n)
  have hsorted := List.pairwise_lt_finRange 4
  rw [hl] at hsorted
  have hbefore (m : Fin 4) (hm : m ∈ l₁) : m < n := (List.pairwise_append.mp hsorted).2.2 m hm n List.mem_cons_self
  refine List.findSome?_eq_some_iff.mpr ⟨l₁, n, l₂, hl,
    (if_pos hn).trans ?_, fun m hm => if_neg (hfirst m (hbefore m hm))⟩
  rw [hc]
  rfl

theorem Sce.next_slot {n : Fin 4} (hn : (u.slots[n]'n.isLt).state = .queued) (hc : (u.slots[n]'n.isLt).scan = some c)
    (hfirst : ∀ m < n, (u.slots[m]'m.isLt).state ≠ .queued) :
    u.next = some (.slot n, c,
      { u with slots := put u.slots n { u.slots[n]'n.isLt with state := .running } }) := by
  rw [Sce.next, Sce.queuedSlot_first hn hc hfirst]

theorem Sce.next_station {t : Ticket} {l : List StationScan} (hslots : ∀ n : Fin 4, (u.slots[n]'n.isLt).state ≠ .queued)
    (hq : u.queue = { ticket := t, scan := c } :: l) : u.next = some (.station t, c, { u with queue := l }) := by
  rw [Sce.next, Sce.queuedSlot_none hslots, hq]

theorem Sce.next_none (hslots : ∀ n : Fin 4, (u.slots[n]'n.isLt).state ≠ .queued) (hq : u.queue = []) :
    u.next = none := by
  rw [Sce.next, Sce.queuedSlot_none hslots, hq]

/-! ## The start checks (R158) -/

theorem powerAway_iff :
    powerAway s = true ↔ ∃ i, s.sce.powerLane = some i ∧ (s.stu.lanes[i]'i.isLt).accepted ≠ s.sce.powerLevel := by
  unfold powerAway
  split
  · next i hi =>
    rw [bne_iff_ne]
    exact ⟨fun h => ⟨i, hi, h⟩, fun ⟨j, hj, h⟩ => Option.some.inj (hi.symm.trans hj) ▸ h⟩
  · next hi => exact ⟨nofun, fun ⟨j, hj, _⟩ => absurd (hi.symm.trans hj) nofun⟩

theorem startFault_away (h : powerAway s = true) : startFault c s = some (.noPower, .noPower) := if_pos h

theorem startFault_unknown (h : ¬powerAway s = true) (ht : s.sce.tracked = .unknown) (hk : c.kind ≠ .tapReset) :
    startFault c s = some (.state, .aborted) := (if_neg h).trans (if_pos ⟨ht, hk⟩)

theorem startFault_none (h : ¬powerAway s = true) (ht : s.sce.tracked ≠ .unknown ∨ c.kind = .tapReset) :
    startFault c s = none :=
  (if_neg h).trans (if_neg fun ⟨hu, hk⟩ => ht.elim (fun h => h hu) hk)

/-! ## The turns of the arbiter (R157, R158) -/

/-- The slots that are QUEUED. -/
def queuedIn (v : Vector Slot 4) : List (Fin 4) := (List.finRange 4).filter fun n => (v[n]'n.isLt).state == .queued

theorem Sce.waiting_eq (u : Sce) : u.waiting = u.queue.length + (queuedIn u.slots).length := rfl

/-- A slot that is given another state leaves those that are QUEUED. -/
theorem queuedIn_put {v : Vector Slot 4} (n : Fin 4) {x : Slot} (hx : x.state ≠ .queued) :
    queuedIn (put v n x) = (queuedIn v).filter fun m => decide (m ≠ n) := by
  refine (List.filter_congr fun m _ => ?_).trans List.filter_filter.symm
  rw [put_get]
  by_cases hm : n = m
  · rw [if_pos hm, beq_eq_false_iff_ne.mpr hx, decide_eq_false (not_not.mpr hm.symm), Bool.false_and]
  · rw [if_neg hm, decide_eq_true (Ne.symm hm), Bool.true_and]

theorem failUndriven_waiting (o : ScanOrigin) (c : Scan) (f : Status × ScanReason) (s : State) :
    (failUndriven o c f s).sce.waiting ≤ s.sce.waiting := by
  cases o with
  | station t => exact le_rfl
  | slot n =>
    refine Nat.add_le_add_left ?_ s.sce.queue.length
    have hput := queuedIn_put (v := s.sce.slots) n
      (x := { s.sce.slots[n]'n.isLt with state := slotEnd f.1, result := some { outcome := f.1, tdo := [] } })
      (slotEnd_notQueued f.1)
    exact (congrArg List.length hput).trans_le (List.length_filter_le ..)

theorem Sce.next_waiting {o : ScanOrigin} {v : Sce} (h : u.next = some (o, c, v)) : v.waiting < u.waiting := by
  unfold Sce.next at h
  split at h
  · next n c' hslot =>
    cases h
    obtain ⟨m, hm, hmn⟩ := List.exists_of_findSome?_eq_some hslot
    have hqueued : m = n ∧ (u.slots[n]'n.isLt).state = .queued := by
      split at hmn
      · next hstate =>
        obtain ⟨c'', -, hc''⟩ := Option.map_eq_some_iff.mp hmn
        obtain rfl := congrArg Prod.fst hc''
        exact ⟨rfl, hstate⟩
      · cases hmn
    have hput := queuedIn_put (v := u.slots) n (x := { u.slots[n]'n.isLt with state := .running }) nofun
    refine Nat.add_lt_add_left ((congrArg List.length hput).trans_lt ?_) u.queue.length
    refine List.length_filter_lt_length_iff_exists.mpr ⟨n, ?_, ?_⟩
    · exact List.mem_filter.mpr ⟨List.mem_finRange n, beq_iff_eq.mpr hqueued.2⟩
    · simp
  · split at h
    · next q l hq =>
      cases h
      rw [Sce.waiting_eq, Sce.waiting_eq, hq]
      simp
    · cases h

/-- A turn more than there is waiting changes nothing. -/
theorem arbitrateFor_succ (n : Nat) (s : State) (h : s.sce.waiting ≤ n) :
    arbitrateFor (n + 1) s = arbitrateFor n s := by
  induction n generalizing s with
  | zero =>
    have hnext : s.sce.next = none := by
      cases hnext : s.sce.next with
      | none => rfl
      | some x => exact absurd (Sce.next_waiting hnext) (by omega)
    simp only [arbitrateFor, hnext, ite_self]
  | succ n ih =>
    by_cases hp : s.sce.phase = .free
    · rw [arbitrateFor, arbitrateFor, if_pos hp, if_pos hp]
      cases hnext : s.sce.next with
      | none => rfl
      | some x =>
        obtain ⟨o, c, v⟩ := x
        dsimp only
        cases startFault c { s with sce := v } with
        | none => rfl
        | some f =>
          refine ih _ ?_
          have hfail := failUndriven_waiting o c f { s with sce := v }
          have hless := Sce.next_waiting hnext
          exact Nat.le_of_lt_succ ((hfail.trans_lt hless).trans_le h)
    · rw [arbitrateFor_busy _ hp, arbitrateFor_busy _ hp]

theorem arbitrateFor_enough {n m : Nat} (s : State) (h : s.sce.waiting ≤ n) (hnm : n ≤ m) :
    arbitrateFor m s = arbitrateFor n s := by
  induction m, hnm using Nat.le_induction with
  | base => rfl
  | succ m hm ih => exact (arbitrateFor_succ m s (h.trans hm)).trans ih

theorem Sce.waiting_le (u : Sce) : u.waiting ≤ u.queue.length + 4 :=
  Nat.add_le_add_left ((List.length_filter_le ..).trans_eq List.length_finRange) _

/-- A scan that fails its start checks is followed by the next one that waits. -/
theorem arbitrate_fails {o : ScanOrigin} {v : Sce} {f : Status × ScanReason} (hp : s.sce.phase = .free)
    (hnext : s.sce.next = some (o, c, v)) (hf : startFault c { s with sce := v } = some f) :
    arbitrate s = arbitrate (failUndriven o c f { s with sce := v }) := by
  have hless : (failUndriven o c f { s with sce := v }).sce.waiting < s.sce.waiting :=
    (failUndriven_waiting o c f _).trans_lt (Sce.next_waiting hnext)
  have hturn : arbitrate s = arbitrateFor (s.sce.queue.length + 4) (failUndriven o c f { s with sce := v }) := by
    rw [arbitrate, arbitrateFor, if_pos hp, hnext]
    dsimp only
    rw [hf]
  generalize failUndriven o c f { s with sce := v } = t at *
  rw [hturn, arbitrate]
  have henough : t.sce.waiting ≤ s.sce.queue.length + 4 := hless.le.trans (Sce.waiting_le _)
  have henough' : t.sce.waiting ≤ t.sce.queue.length + 5 := (Sce.waiting_le _).trans (Nat.le_succ _)
  rw [arbitrateFor_enough t le_rfl henough, arbitrateFor_enough t le_rfl henough']

theorem arbitrate_starts {o : ScanOrigin} {v : Sce} (hp : s.sce.phase = .free) (hnext : s.sce.next = some (o, c, v))
    (hf : startFault c { s with sce := v } = none) : arbitrate s = enterGuard o c { s with sce := v } := by
  rw [arbitrate, arbitrateFor, if_pos hp, hnext]
  dsimp only
  rw [hf]

end

end Sys2Proof.Machine
end

section
/-! SCAN SUBMIT, the start of a scan and the verdict on it (R155, R157–R159). -/

namespace Sys2Proof.Machine

set_option Elab.async false

open Sys2Proof.Claims

section
variable {s : State} {c : Scan} {q : Request} {rest : List Request}

/-! ## SCAN SUBMIT (R155) -/

theorem serveScanSubmit_full (h : 8 ≤ s.sce.queue.length) : serveScanSubmit q s = refuse q .full s := if_pos h

theorem serveScanSubmit_state (h : s.sce.queue.length < 8) (ht : s.sce.tracked = .unknown)
    (hk : byteAt q.payload 0 ≠ 2) :
    serveScanSubmit q s = refuse q .state s := (if_neg (Nat.not_le.mpr h)).trans (if_pos ⟨ht, hk⟩)

/-- What remains once the queue has room and the tracked state lets the scan begin. -/
theorem serveScanSubmit_checked (h : s.sce.queue.length < 8) (ht : s.sce.tracked ≠ .unknown ∨ byteAt q.payload 0 = 2) :
    serveScanSubmit q s =
      match scanAt q.payload 0 with
      | none => refuse q .range s
      | some c => arbitrate
        { s with sce := { s.sce with queue := s.sce.queue ++ [{ ticket := q.ticket, scan := c }] } } :=
  (if_neg (Nat.not_le.mpr h)).trans (if_neg fun ⟨hu, hk⟩ => ht.elim (fun h => h hu) hk)

/-! ## A scan that drives no clock (R158, R159) -/

theorem failUndriven_eq (o : ScanOrigin) (c : Scan) (st : Status) (why : ScanReason) (s : State) {u : State}
    (hu : u = produce (newRecord 30 .scanFail s.tbu.base (scanKey why c))
      { s with sce := { s.sce with phase := .free, running := none, tck := false } }) :
    failUndriven o c (st, why) s =
      match o with
      | .station t => answered t st [0, 0] u
      | .slot n =>
        { u with
          sce :=
            { u.sce with
              slots := put s.sce.slots n
                { s.sce.slots[n]'n.isLt with
                  state := if st = .done then .done else if st = .aborted then .aborted else .failed
                  result := some { outcome := st, tdo := [] } } } } := by
  subst hu
  exact (concludeScan_eq o st [] _).trans (by cases o <;> rfl)

/-! ## SHIFT begins (R150, R159) -/

theorem setUpClock_first {r : Running} {k : TckClock} {l : List TckClock} (b : Bool) (hr : s.sce.running = some r)
    (hplan : r.plan = k :: l) :
    setUpClock b s =
      { s with
        free := match k.out with
          | some _ => s.free
          | none => s.free + 1
        sce :=
          { s.sce with
            tck := false, tms := k.tms
            tdi := match k.out with
              | some b => b
              | none => Config.freeTdi s.free
            edgeClocks := 0, followed := b } } := by
  have hhead : (s.sce.running.bind fun r => r.plan.head?) = some k := by rw [hr, Option.bind_some, hplan]; rfl
  rw [setUpClock, hhead]
  dsimp only
  cases k.out <;> rfl

theorem scanVerdict_shifts {r : Running} {k : TckClock} {l : List TckClock} (hp : s.sce.phase = .guard)
    (hr : s.sce.running = some r) (ha : r.abortTaken = false) (hf : startFault r.scan s = none)
    (hplan : scanPlan r.scan s.sce.tracked = k :: l) :
    scanVerdict false s =
      { s with
        free := match k.out with
          | some _ => s.free
          | none => s.free + 1
        sce :=
          { s.sce with
            phase := .shift, running := some { r with plan := k :: l }, tck := false, tms := k.tms
            tdi := match k.out with
              | some b => b
              | none => Config.freeTdi s.free
            edgeClocks := 0, followed := true } } := by
  rw [scanVerdict_go hp hr ha hf, beginShift, hplan]
  exact setUpClock_first true rfl rfl

/-! ## The two ways a FREE engine takes a scan (R157) -/

/-- The scan power lane stands at its required level. -/
theorem not_powerAway (h : ∀ i, s.sce.powerLane = some i → (s.stu.lanes[i]'i.isLt).accepted = s.sce.powerLevel) :
    ¬powerAway s = true := fun haway =>
  have ⟨i, hi, hno⟩ := powerAway_iff.mp haway
  hno (h i hi)

theorem startFault_of_cases {f : Status × ScanReason} {away : Prop} (haway : away = (powerAway s = true))
    (h : (away ∧ f = (.noPower, .noPower)) ∨
      (¬away ∧ s.sce.tracked = .unknown ∧ c.kind ≠ .tapReset ∧ f = (.state, .aborted))) :
    startFault c s = some f := by
  subst haway
  rcases h with ⟨h, rfl⟩ | ⟨h, ht, hk, rfl⟩
  · exact startFault_away h
  · exact startFault_unknown h ht hk

end

/-- Settles O43: the arbiter's turns by what waits first, and the verdict by the checks of R159 in their order. -/
theorem scanSubmitStartAndVerdict : Obligations.ScanSubmitStartAndVerdict := by
  unfold Obligations.ScanSubmitStartAndVerdict
  refine ⟨fun s q rest hq => ?_, fun p i c => validScan_of_scanAt, fun s => arbitrate_busy,
    fun s hslots hqueue => arbitrate_idle (Sce.next_none hslots hqueue), fun s c hp ht hpower => ?_,
    fun s c f away haway hf hp => ?_, fun s o c st why u hu => failUndriven_eq o c st why s hu,
    fun s refused hp => scanVerdict_other refused (.inl hp), fun s r refused away hp hr haway => ?_⟩
  · have hexec := exec_head (c := .scanSubmit) rfl hq
    refine ⟨fun h => hexec.trans (congrArg Host.Outcome.next (serveScanSubmit_full h)), fun h ht hk =>
      hexec.trans (congrArg Host.Outcome.next (serveScanSubmit_state (s := taken rest s) h ht hk)), fun h ht => ?_⟩
    rw [serveScanSubmit_checked (s := taken rest s) h ht] at hexec
    refine ⟨fun hno => hexec.trans ?_, fun c hc => hexec.trans ?_⟩
    · rw [hno]
      rfl
    · rw [hc]
      rfl
  · exact ⟨fun n hn hc hfirst => arbitrate_starts hp (Sce.next_slot hn hc hfirst)
        (startFault_none (not_powerAway hpower) ht),
      fun t l hslots hqueue => arbitrate_starts hp (Sce.next_station hslots hqueue)
        (startFault_none (not_powerAway hpower) ht)⟩
  · have hfault := startFault_of_cases (haway.trans (propext powerAway_iff).symm) hf
    exact ⟨fun n hn hc hfirst => arbitrate_fails hp (Sce.next_slot hn hc hfirst) hfault,
      fun t l hslots hqueue => arbitrate_fails hp (Sce.next_station hslots hqueue) hfault⟩
  · subst haway
    rw [← powerAway_iff]
    refine ⟨fun ha => scanVerdict_aborted refused hp hr ha, ?_, ?_, ?_, ?_⟩
    · rintro ha rfl
      exact scanVerdict_refused hp hr ha
    · rintro ha rfl h
      exact scanVerdict_fault _ hp hr ha (startFault_away h)
    · rintro ha rfl h ht hk
      exact scanVerdict_fault _ hp hr ha (startFault_unknown h ht hk)
    · rintro ha rfl h ht k l hplan
      exact scanVerdict_shifts hp hr ha (startFault_none h ht) hplan

end Sys2Proof.Machine
end

section
/-! The edges of TCK (R150, R151), and what an abort leaves of a plan (R165, R166). -/

namespace Sys2Proof.Machine

set_option Elab.async false

open Sys2Proof.Claims

section
variable {u : Sce} {r : Running} {k : TckClock} {l : List TckClock} {tdo rclk : Bool}

theorem Running.sample_cons (h : r.plan = k :: l) :
    r.sample tdo = if k.out.isSome then { r with tdo := r.tdo ++ [tdo] } else r := by
  rw [Running.sample, h]

theorem Running.sample_nil (h : r.plan = []) : r.sample tdo = r := by
  rw [Running.sample, h]

theorem Running.sample_parts (r : Running) (tdo : Bool) :
    (r.sample tdo).plan = r.plan ∧ (r.sample tdo).abortTaken = r.abortTaken ∧
      (r.sample tdo).stoppedShort = r.stoppedShort := by
  unfold Running.sample
  split
  · split
    · exact ⟨rfl, rfl, rfl⟩
    · exact ⟨rfl, rfl, rfl⟩
  · exact ⟨rfl, rfl, rfl⟩

/-! ## What a sample of RCLK and TDO does -/

/-- The running scan once RCLK may have followed: after a rising edge it keeps the TDO bit. -/
def Sce.followedScan (u : Sce) (rclk tdo : Bool) (r : Running) : Running :=
  if u.followed = false ∧ rclk = true ∧ u.tck = true then r.sample tdo else r

theorem Sce.followedScan_low (h : u.tck = false) : u.followedScan rclk tdo r = r :=
  if_neg fun ⟨_, _, ht⟩ => Bool.false_ne_true (h.symm.trans ht)

theorem Sce.followedScan_nil (h : r.plan = []) : u.followedScan rclk tdo r = r := by
  rw [Sce.followedScan, Running.sample_nil h, ite_self]

theorem Sce.followedScan_followed (h : u.followed = true) : u.followedScan rclk tdo r = r :=
  if_neg fun ⟨hf, _, _⟩ => Bool.false_ne_true (hf.symm.trans h)

theorem Sce.followedScan_parts :
    (u.followedScan rclk tdo r).plan = r.plan ∧ (u.followedScan rclk tdo r).abortTaken = r.abortTaken ∧
      (u.followedScan rclk tdo r).stoppedShort = r.stoppedShort := by
  unfold Sce.followedScan
  split
  · exact Running.sample_parts r tdo
  · exact ⟨rfl, rfl, rfl⟩

theorem Sce.follow_eq (hr : u.running = some r) :
    u.follow rclk tdo =
      { u with followed := u.followed || rclk == u.tck, running := some (u.followedScan rclk tdo r) } := by
  unfold Sce.followedScan
  by_cases h : u.followed = true ∨ rclk ≠ u.tck
  · have hfollowed : (u.followed || rclk == u.tck) = u.followed := by
      rcases h with h | h
      · rw [h, Bool.true_or]
      · rw [beq_eq_false_iff_ne.mpr h, Bool.or_false]
    have hscan : ¬(u.followed = false ∧ rclk = true ∧ u.tck = true) := by
      rintro ⟨hf, hrclk, ht⟩
      rcases h with h | h
      · exact Bool.false_ne_true (hf.symm.trans h)
      · exact h (hrclk.trans ht.symm)
    rw [follow_not u rclk tdo h, hfollowed, if_neg hscan, ← hr]
  · obtain ⟨hf, hrclk⟩ := not_or.mp h
    rw [Bool.not_eq_true] at hf
    rw [not_not] at hrclk
    subst hrclk
    rw [follow_now u _ tdo hf rfl, hr, hf, beq_self_eq_true, Bool.false_or]
    cases u.tck <;> rfl

/-- The half period has passed since an edge that RCLK has followed. -/
theorem Sce.edgeDue_iff (hd : u.drives = true) (hr : u.running = some r) :
    u.edgeDue = true ↔ u.followed = true ∧ 2 ^ (u.rate.val + 1) ≤ u.edgeClocks ∧ r.plan ≠ [] := by
  simp only [Sce.edgeDue, hd, hr, Bool.true_and, Bool.and_eq_true, decide_eq_true_eq, Option.any_some,
    Bool.not_eq_true',
    and_assoc, List.isEmpty_eq_false_iff]
  exact Iff.rfl

theorem Sce.rise_due (hr : u.running = some r) (hd : u.edgeDue = true) (hl : u.tck = false) :
    u.rise tdo =
      { u with
        tck := true, edgeClocks := 0, followed := decide (u.timeout = 0)
        running := some (if u.timeout = 0 then r.sample tdo else r) } := by
  by_cases ht : u.timeout = 0
  · rw [rise_unpaced u tdo ht hd hl, hr, if_pos ht, decide_eq_true ht]
    rfl
  · rw [rise_paced u tdo ht hd hl, if_neg ht, decide_eq_false ht, ← hr]

/-- No rising edge is due: the sample at most follows. -/
theorem Sce.sampled_quiet (hd : u.drives = true) (hr : u.running = some r)
    (h : u.tck = true ∨ ¬((u.followed || rclk == u.tck) = true ∧ 2 ^ (u.rate.val + 1) ≤ u.edgeClocks ∧ r.plan ≠ [])) :
    u.sampled rclk tdo =
      { u with followed := u.followed || rclk == u.tck, running := some (u.followedScan rclk tdo r) } := by
  rw [Sce.sampled, if_pos hd, Sce.follow_eq hr]
  refine rise_notDue _ tdo (h.symm.imp (fun h => ?_) id)
  have hdue := Sce.edgeDue_iff (r := u.followedScan rclk tdo r)
    (u := { u with followed := u.followed || rclk == u.tck, running := some (u.followedScan rclk tdo r) }) hd rfl
  rw [Sce.followedScan_parts.1] at hdue
  exact Bool.eq_false_iff.mpr fun hyes => h (hdue.mp hyes)

/-- The rising edge is due, at once or with the follow that it waited for. -/
theorem Sce.sampled_edge (hd : u.drives = true) (hr : u.running = some r) (ht : u.tck = false)
    (hf : (u.followed || rclk == u.tck) = true) (hh : 2 ^ (u.rate.val + 1) ≤ u.edgeClocks) (hplan : r.plan ≠ []) :
    u.sampled rclk tdo =
      { u with
        tck := true, edgeClocks := 0, followed := decide (u.timeout = 0)
        running := some (if u.timeout = 0 then r.sample tdo else r) } := by
  rw [Sce.sampled, if_pos hd, Sce.follow_eq hr, Sce.followedScan_low ht]
  have hdue := Sce.edgeDue_iff (r := r)
    (u := { u with followed := u.followed || rclk == u.tck, running := some r }) hd rfl
  exact Sce.rise_due rfl (hdue.mpr ⟨hf, hh, hplan⟩) ht

/-! ## One core clock at the engine -/

/-- One core clock counts, and samples. -/
theorem Sce.tickClock_driving (hd : u.drives = true) :
    u.tickClock rclk tdo = { u with edgeClocks := u.edgeClocks + 1 }.sampled rclk tdo := if_pos hd

end

section
variable {s : State} {r : Running} {k : TckClock} {l : List TckClock} {tdo rclk : Bool}

/-- RCLK and TDO as a clock samples them, with the engine as it stands after. -/
def sampledState (rclk tdo : Bool) (u : Sce) (s : State) : State :=
  { s with
    pins := { s.pins with rclk := rclk, tdo := tdo }
    stu := { s.stu with check := s.stu.check.count 0 0 (if s.pins.rclk = false ∧ rclk = true then 1 else 0) }
    sce := u }

theorem sampleReturn_eq (rclk tdo : Bool) (s : State) :
    sampleReturn rclk tdo s = sampledState rclk tdo (s.sce.sampled rclk tdo) s := by
  have hedge : (if (!s.pins.rclk && rclk) = true then 1 else 0) = if s.pins.rclk = false ∧ rclk = true then 1 else 0 :=
    if_congr (by rw [Bool.and_eq_true, Bool.not_eq_true']) rfl rfl
  rw [sampleReturn, hedge]
  rfl

/-- A sample after which no falling edge is due is all that the clock does. -/
theorem tckClock_sample {u : Sce} (hu : s.sce.sampled rclk tdo = u) (h : u.fallDue = false) :
    tckClock rclk tdo s = sampledState rclk tdo u s := by
  rw [tckClock, sampleReturn_eq, hu]
  exact if_neg (Bool.eq_false_iff.mp h)

theorem tckClock_falls {u : Sce} (hu : s.sce.sampled rclk tdo = u) (h : u.fallDue = true) :
    tckClock rclk tdo s = completeClock (sampledState rclk tdo u s) := by
  rw [tckClock, sampleReturn_eq, hu]
  exact if_pos h

/-- The engine after the clock in progress, by what an abort leaves of the plan. -/
theorem Sce.afterClock_eq {u : Sce} {r : Running} {k : TckClock} {l plan : List TckClock} {phase : ScanPhase}
    {short : Bool}
    (h : (phase, plan, short) = if r.abortTaken = true ∧ u.phase = .shift ∧ r.stoppedShort = false then abortPlan k l
      else (u.phase, l, r.stoppedShort)) :
    u.afterClock r k l = { u with phase := phase, running := some { r with plan := plan, stoppedShort := short } } := by
  have hcond : (r.abortTaken && u.phase == .shift && !r.stoppedShort) = true ↔
      r.abortTaken = true ∧ u.phase = .shift ∧ r.stoppedShort = false := by
    rw [Bool.and_eq_true, Bool.and_eq_true, beq_iff_eq, Bool.not_eq_true', and_assoc]
  unfold Sce.afterClock
  by_cases hc : r.abortTaken = true ∧ u.phase = .shift ∧ r.stoppedShort = false
  · rw [if_pos hc] at h
    rw [if_pos (hcond.mpr hc), ← h]
  · rw [if_neg hc] at h
    cases h
    rw [if_neg (hcond.not.mpr hc)]

theorem Sce.fallDue_iff {u : Sce} (hd : u.drives = true) (hr : u.running = some r) :
    u.fallDue = true ↔ (u.followed = true ∧ 2 ^ (u.rate.val + 1) ≤ u.edgeClocks ∧ r.plan ≠ []) ∧ u.tck = true := by
  rw [Sce.fallDue, Bool.and_eq_true, Sce.edgeDue_iff hd hr]

theorem Sce.unpaced_eq (n : Nat) : (n == 0) = decide (n = 0) := by rw [Bool.eq_iff_iff, beq_iff_eq, decide_eq_true_eq]

/-- The falling edge, and the clock set up after it. -/
theorem completeClock_eq {phase : ScanPhase} {plan : List TckClock} {short : Bool} (hr : s.sce.running = some r)
    (hplan : r.plan = k :: l)
    (h : (phase, plan, short) = if r.abortTaken = true ∧ s.sce.phase = .shift ∧ r.stoppedShort = false
      then abortPlan k l
      else (s.sce.phase, l, r.stoppedShort)) {u : State}
    (hu : u = { s with
      sce :=
        { s.sce with
          phase := phase, tck := false, edgeClocks := 0, followed := decide (s.sce.timeout = 0)
          running := some { r with plan := plan, stoppedShort := short } } }) :
    completeClock s =
      match (generalizing := false) plan with
      | [] => u
      | n :: _ =>
        { u with
          free := match n.out with
            | some _ => s.free
            | none => s.free + 1
          sce := { u.sce with tms := n.tms, tdi := match n.out with
            | some b => b
            | none => Config.freeTdi s.free } } := by
  have hstep : completeClock s = setUpClock (decide (s.sce.timeout = 0)) u := by
    rw [completeClock, hr]
    dsimp only
    rw [hplan]
    dsimp only
    rw [Sce.afterClock_eq (u := { s.sce with tck := false, edgeClocks := 0, followed := s.sce.timeout == 0 }) h,
      Sce.unpaced_eq, hu]
  subst hu
  cases plan with
  | nil => exact hstep
  | cons n l => exact hstep.trans (setUpClock_first _ rfl rfl)

theorem Sce.follow_congr (u : Sce) {b b' : Bool} {x x' : Option Running} (hb : b = b') (hx : x = x') :
    ({ u with followed := b, running := x } : Sce) = { u with followed := b', running := x' } := by rw [hb, hx]

end

/-- A clock of an engine with no clock left to drive: RCLK may follow the last falling edge. -/
theorem tickAndTckClock_ended {s : State} {r : Running} {tdo rclk : Bool} (hr : s.sce.running = some r)
    (hplan : r.plan = [])
    (hd : s.sce.drives = true) :
    s.sce.tickClock rclk tdo =
        { s.sce with edgeClocks := s.sce.edgeClocks + 1, followed := s.sce.followed || rclk == s.sce.tck } ∧
      exec (.tckClock rclk tdo) s =
        .next (sampledState rclk tdo { s.sce with followed := s.sce.followed || rclk == s.sce.tck } s) := by
  have hrun (u : Sce) : some (u.followedScan rclk tdo r) = s.sce.running :=
    (congrArg some (Sce.followedScan_nil hplan)).trans hr.symm
  have htick := (Sce.tickClock_driving hd).trans
    (Sce.sampled_quiet (u := { s.sce with edgeClocks := s.sce.edgeClocks + 1 })
    (rclk := rclk) (tdo := tdo) hd hr (.inr fun ⟨_, _, h⟩ => h hplan))
  have hsample := (Sce.sampled_quiet (rclk := rclk) (tdo := tdo) hd hr (.inr fun ⟨_, _, h⟩ => h hplan)).trans
    (Sce.follow_congr s.sce rfl (hrun _))
  refine ⟨htick.trans (Sce.follow_congr _ rfl (hrun _)), congrArg Host.Outcome.next (tckClock_sample hsample ?_)⟩
  rw [← Bool.not_eq_true,
    Sce.fallDue_iff (r := r) (u := { s.sce with followed := s.sce.followed || rclk == s.sce.tck }) hd hr]
  exact fun ⟨⟨_, _, h⟩, _⟩ => h hplan

section
variable {s : State} {r : Running} {k : TckClock} {rest : List TckClock} {tdo rclk : Bool}

/-- TCK_CLOCK where no edge comes of the sample. -/
theorem tckClock_noEdge (hr : s.sce.running = some r) (hd : s.sce.drives = true)
    (h : ¬((s.sce.followed || rclk == s.sce.tck) = true ∧ 2 ^ (s.sce.rate.val + 1) ≤ s.sce.edgeClocks)) :
    tckClock rclk tdo s =
      sampledState rclk tdo
        { s.sce with
          followed := s.sce.followed || rclk == s.sce.tck, running := some (s.sce.followedScan rclk tdo r) } s := by
  refine tckClock_sample (Sce.sampled_quiet hd hr (.inr fun ⟨hf, hh, _⟩ => h ⟨hf, hh⟩))
    (Bool.eq_false_iff.mpr fun hdue => ?_)
  obtain ⟨⟨hf, hh, -⟩, -⟩ := (Sce.fallDue_iff (r := s.sce.followedScan rclk tdo r) (by exact hd) (by rfl)).mp hdue
  exact h ⟨hf, hh⟩

/-- TCK_CLOCK where the sample drives the rising edge. -/
theorem tckClock_risingEdge (hr : s.sce.running = some r) (hd : s.sce.drives = true) (hne : r.plan ≠ [])
    (ht : s.sce.tck = false) (hf : (s.sce.followed || rclk == s.sce.tck) = true)
    (hh : 2 ^ (s.sce.rate.val + 1) ≤ s.sce.edgeClocks) :
    tckClock rclk tdo s =
      sampledState rclk tdo
        { s.sce with
          tck := true, edgeClocks := 0, followed := decide (s.sce.timeout = 0)
          running := some (if s.sce.timeout = 0 then r.sample tdo else r) } s := by
  refine tckClock_sample (Sce.sampled_edge hd hr ht hf hh hne) (Bool.eq_false_iff.mpr fun hdue => ?_)
  obtain ⟨⟨-, hh, -⟩, -⟩ :=
    (Sce.fallDue_iff (r := if s.sce.timeout = 0 then r.sample tdo else r) (by exact hd) (by rfl)).mp hdue
  exact absurd hh (Nat.not_le.mpr (Nat.two_pow_pos _))

/-- TCK_CLOCK where the clock in progress completes. -/
theorem tckClock_fallingEdge (hr : s.sce.running = some r) (hd : s.sce.drives = true) (hne : r.plan ≠ [])
    (ht : s.sce.tck = true) (hf : (s.sce.followed || rclk == s.sce.tck) = true)
    (hh : 2 ^ (s.sce.rate.val + 1) ≤ s.sce.edgeClocks) :
    tckClock rclk tdo s =
      completeClock (sampledState rclk tdo
        { s.sce with
          followed := s.sce.followed || rclk == s.sce.tck, running := some (s.sce.followedScan rclk tdo r) } s) :=
  tckClock_falls (Sce.sampled_quiet hd hr (.inl ht))
    ((Sce.fallDue_iff (r := s.sce.followedScan rclk tdo r) (by exact hd) (by rfl)).mpr
      ⟨⟨hf, hh, Sce.followedScan_parts.1.trans_ne hne⟩, ht⟩)

end

/-- Settles O42: a sample at most follows, or also drives the rising edge; a clock whose falling edge is then due
completes. -/
theorem tckEdgesFollowTheRate : Obligations.TckEdgesFollowTheRate := by
  unfold Obligations.TckEdgesFollowTheRate
  refine ⟨?_, ?_⟩
  · rintro s r k rest tdo rclk half kept hr hplan hp rfl hkept
    obtain rfl : kept = r.sample tdo := hkept.trans (Running.sample_cons hplan).symm
    have hd : s.sce.drives = true := Sce.drives_iff.mpr hp
    have hne : r.plan ≠ [] := hplan ▸ nofun
    let u : Sce := { s.sce with edgeClocks := s.sce.edgeClocks + 1 }
    have quiet (h) := (Sce.tickClock_driving hd).trans (Sce.sampled_quiet (u := u) (rclk := rclk) (tdo := tdo) hd hr h)
    have edge (ht hf hh) :=
      (Sce.tickClock_driving hd).trans (Sce.sampled_edge (u := u) (rclk := rclk) (tdo := tdo) hd hr ht hf hh hne)
    have still {b : Bool} (hf : s.sce.followed = true) : (s.sce.followed || b) = true := by rw [hf, Bool.true_or]
    have now {b : Bool} (h : rclk = b) (ht : s.sce.tck = b) : (s.sce.followed || rclk == s.sce.tck) = true := by
      rw [h, ht, beq_self_eq_true, Bool.or_true]
    refine ⟨fun hf h => ?_, fun hf ht hh => edge ht (still hf) hh, fun hf hno => ?_, fun hf hrclk ht => ?_,
      fun hf hrclk ht hh => ?_, fun hf hrclk ht hh => edge ht (now hrclk ht) hh, ?_⟩
    · exact (quiet (h.imp_right fun h ⟨_, hh, _⟩ => absurd hh (Nat.not_le.mpr h))).trans
        (Sce.follow_congr u ((still hf).trans hf.symm) ((congrArg some (Sce.followedScan_followed hf)).trans hr.symm))
    · have hunfollowed : (s.sce.followed || rclk == s.sce.tck) = s.sce.followed := by
        rw [beq_eq_false_iff_ne.mpr hno, Bool.or_false]
      have hscan : u.followedScan rclk tdo r = r := if_neg fun ⟨_, hrclk, ht⟩ => hno (hrclk.trans ht.symm)
      exact (quiet (.inr fun ⟨h, _, _⟩ => Bool.false_ne_true ((hunfollowed.trans hf).symm.trans h))).trans
        (Sce.follow_congr u hunfollowed ((congrArg some hscan).trans hr.symm))
    · exact (quiet (.inl ht)).trans (Sce.follow_congr u (now hrclk ht) (congrArg some (if_pos ⟨hf, hrclk, ht⟩)))
    · exact (quiet (.inr fun ⟨_, hh', _⟩ => absurd hh' (Nat.not_le.mpr hh))).trans
        (Sce.follow_congr u (now hrclk ht) ((congrArg some (Sce.followedScan_low ht)).trans hr.symm))
    · rintro r1 f1 v rfl rfl rfl
      refine ⟨fun h => congrArg Host.Outcome.next (tckClock_noEdge hr hd h),
        fun ht hf hh => congrArg Host.Outcome.next (tckClock_risingEdge hr hd hne ht hf hh),
        fun ht hf hh phase plan short w hrest hw => congrArg Host.Outcome.next
          ((tckClock_fallingEdge hr hd hne ht hf hh).trans ?_)⟩
      obtain ⟨hparts, habort, hshort⟩ := Sce.followedScan_parts (u := s.sce) (rclk := rclk) (tdo := tdo) (r := r)
      refine completeClock_eq (r := s.sce.followedScan rclk tdo r) rfl (hparts.trans hplan) ?_ hw
      rw [habort, hshort]
      exact hrest
  · rintro s r tdo rclk f1 hr hplan hp rfl
    exact tickAndTckClock_ended hr hplan (Sce.drives_iff.mpr hp)

end Sys2Proof.Machine
end
